-- ==== Sys2Proof/Word.lean ====
section
/-! DEFINITION. The word types of CS01 (spec/00_scope.md R6, R7, R10). -/

namespace Sys2Proof

/-- A byte, size 1 of R10. -/
abbrev Byte := BitVec 8

/-- A 32-bit word; bit 0 is the least significant (R6). Addition, subtraction and multiplication wrap (R7). -/
abbrev Word := BitVec 32

/-- A 64-bit counter value (spec/10_state.md R34). -/
abbrev DWord := BitVec 64

/-- The number of an integer register, x0 to x31 (R11). -/
abbrev XReg := BitVec 5

/-- The number of a floating-point register, f0 to f31 (R11). -/
abbrev FReg := BitVec 5

end Sys2Proof
end

