-- ==== Sys2Proof/Config.lean ====
section
/-! DEFINITION. What an implementation of CS01 fixes and the spec leaves open: the types of the parameters of
spec/93_implementation_defined.md section 2 and the free values. The value each parameter takes is set where it is
used (Decode.lean, Machine/Platform.lean), so that it can be changed there. -/

namespace Sys2Proof

/-- BYTE_ORDER (D1). -/
inductive ByteOrder where
  | little
  | big
  deriving DecidableEq, Repr

/-- ENCODING_VARIANT (D7): the source's printed field values, or RISC-V's. -/
inductive EncodingVariant where
  | source
  | riscv
  deriving DecidableEq, Repr

/-- BRANCH_MISALIGNED (D5): what a taken branch to an address that is not a multiple of 4 does. -/
inductive BranchMisaligned where
  | refuse
  | clearLow2
  | fetchMisaligned
  deriving DecidableEq, Repr

/-- FP_ARITH (D15): IEEE 754 arithmetic, or results of which nothing is known but that a Nan operand gives a Nan. -/
inductive FpArith where
  | ieee754
  | abstract
  deriving DecidableEq, Repr

/-- FP_FLAG_MODEL (D17): the literal reading of the source's flag definitions, or IEEE 754's. -/
inductive FpFlagModel where
  | source
  | ieee
  deriving DecidableEq, Repr

/-- The class MEMORY_MAP gives an address (spec/20_memory.md R69). -/
inductive Region where
  | ram
  | rom
  | device
  | vacant
  deriving DecidableEq, Repr

/-- One row of a memory map: the `size` bytes from `base` are of class `kind`. -/
structure MapRow where
  base : Nat
  size : Nat
  kind : Region
  deriving DecidableEq, Repr

/-- Where an interrupt is taken (spec/60_exceptions.md R280): between instructions, by PFI, or ending the wait of WFI. -/
inductive InterruptPoint where
  | between
  | poll
  | wait
  deriving DecidableEq, Repr

/-- What enters machine mode: the three trap constructors of spec/60_exceptions.md R288. They select a resume address; no
state records which one happened (R281). -/
inductive TrapCause where
  | envCall
  | breakpoint
  | interrupt (point : InterruptPoint)
  deriving DecidableEq, Repr

/-- One bus cycle that reaches an address of class device (spec/20_memory.md R68, R69), as the platform sees it: a read of
`size` bytes, or a write of the bytes, at rising addresses from `addr`. A fetch is a read of four bytes (R67). -/
inductive DeviceAccess where
  | read (addr : Word) (size : Nat)
  | write (addr : Word) (bytes : List Byte)
  deriving DecidableEq, Repr

/-- The five rounding modes (spec/43_floating_point.md R212). -/
inductive Rounding where
  /-- to nearest, ties to even -/
  | rne
  /-- toward zero -/
  | rtz
  /-- toward minus infinity -/
  | rdn
  /-- toward plus infinity -/
  | rup
  /-- to nearest, ties to the larger magnitude -/
  | rmm
  deriving DecidableEq, Repr

/-- A delivered floating-point result: its bits, whether it differs from the exact one, and, for FP_FLAG_MODEL = ieee,
whether the rounded magnitude exceeded the largest finite number and whether it was tiny with an unbounded exponent
range (spec/43_floating_point.md R215). -/
structure Rounded where
  bits : Word
  inexact : Bool := false
  overflow : Bool := false
  tiny : Bool := false
  deriving DecidableEq, Repr, Inhabited

/-- The floating-point operations that can deliver a Nan of an unstated pattern (spec/43_floating_point.md R216). -/
inductive FpOp where
  | add
  | sub
  | mul
  | div
  | sqrt
  deriving DecidableEq, Repr

/-- The rom's first address (spec/20_memory.md R71). -/
def Config.romBase : Nat := 0xFFFC0000

/-- RESET_PC (spec/90_conflicts.md C1, D29). -/
def Config.resetPc : Word := 0xFFFC0100

/-- FREE VALUE. FP_NAN_RESULT (R211): 32 bits from which the Nan that an operation delivers is made, a function of
the operands. The second operand of a square root is taken as 0. Log 21. -/
opaque Config.fpNanDraw : FpOp → Word → Word → Word

/-- FREE VALUE. What an operation delivers under FP_ARITH = abstract, a function of the rounding mode and the operands.
The second operand of a square root is taken as 0. Log 20. -/
opaque Config.fpAbstract : FpOp → Rounding → Word → Word → Rounded

/-- FREE VALUE. The platform oracle (spec/20_memory.md R69): the byte that a device address answers, a function of the
bus cycles the devices have seen, the present one first, of the draw number, which stands for the time, and of the
address. Log 37. -/
opaque Config.deviceByte : List DeviceAccess → Nat → Word → Byte

/-- FREE VALUE. By how much more than 1 the tick count advances for the executed instruction with this draw number
(spec/44_machine_mode.md R272). Log 5. -/
opaque Config.cycleExtra : Nat → Nat

/-- FREE VALUE. By how much the wall-clock time advances in the step with this draw number (R272). Log 5. -/
opaque Config.timeAdvance : Nat → Nat

end Sys2Proof
end

