-- ==== Sys2Proof/Syntax.lean ====
section
/-! DEFINITION. The instructions of CS01: one constructor per row of spec/opcode_table.json (spec/00_scope.md R2), the
assembler's names (spec/10_state.md R24, spec/30_encoding.md R118) and the reasons a word is no instruction (R115).

An immediate field holds the bits the word carries: `imm : BitVec 20` is imm[31:12] of the U format (R105),
`imm : BitVec 12` is imm[11:0] (R106, R107), `off : BitVec 12` is imm[12:1] of a branch (R108), `off : BitVec 20` is
imm[20:1] of JAL and CALL (R109); bit 0 of a displacement is not encoded and is zero. -/

namespace Sys2Proof

/-- The 82 rows of the opcode table, in its order: 73 machine instructions and the nine extended mnemonics CALL, RET,
BRA, NOP, LDI, MOV, FMOV, FNEG, FABS (R117). -/
inductive Instr where
  /-- LUI, R131. -/
  | lui (rd : XReg) (imm : BitVec 20)
  /-- AUIPC, R132. -/
  | auipc (rd : XReg) (imm : BitVec 20)
  /-- JAL, R170. -/
  | jal (rd : XReg) (off : BitVec 20)
  /-- CALL, R171. -/
  | call (off : BitVec 20)
  /-- JALR, R172. -/
  | jalr (rd rs1 : XReg) (imm : BitVec 12)
  /-- RET, R173. -/
  | ret
  /-- BEQ, R175. -/
  | beq (rs1 rs2 : XReg) (off : BitVec 12)
  /-- BNE, R177. -/
  | bne (rs1 rs2 : XReg) (off : BitVec 12)
  /-- BLT, R180. -/
  | blt (rs1 rs2 : XReg) (off : BitVec 12)
  /-- BGE, R181. -/
  | bge (rs1 rs2 : XReg) (off : BitVec 12)
  /-- BLTU, R182. -/
  | bltu (rs1 rs2 : XReg) (off : BitVec 12)
  /-- BGEU, R183. -/
  | bgeu (rs1 rs2 : XReg) (off : BitVec 12)
  /-- BRA, R184. -/
  | bra (off : BitVec 12)
  /-- LB, R191. -/
  | lb (rd rs1 : XReg) (imm : BitVec 12)
  /-- LH, R192. -/
  | lh (rd rs1 : XReg) (imm : BitVec 12)
  /-- LW, R193. -/
  | lw (rd rs1 : XReg) (imm : BitVec 12)
  /-- LBU, R194. -/
  | lbu (rd rs1 : XReg) (imm : BitVec 12)
  /-- LHU, R195. -/
  | lhu (rd rs1 : XReg) (imm : BitVec 12)
  /-- FLW, R196. -/
  | flw (frd : FReg) (rs1 : XReg) (imm : BitVec 12)
  /-- SB, R197. -/
  | sb (rs2 rs1 : XReg) (imm : BitVec 12)
  /-- SH, R198. -/
  | sh (rs2 rs1 : XReg) (imm : BitVec 12)
  /-- SW, R199. -/
  | sw (rs2 rs1 : XReg) (imm : BitVec 12)
  /-- FSW, R200. -/
  | fsw (frs2 : FReg) (rs1 : XReg) (imm : BitVec 12)
  /-- ADDI, R133. -/
  | addi (rd rs1 : XReg) (imm : BitVec 12)
  /-- NOP, R153. -/
  | nop
  /-- SLTI, R134. -/
  | slti (rd rs1 : XReg) (imm : BitVec 12)
  /-- SLTUI, R135. -/
  | sltui (rd rs1 : XReg) (imm : BitVec 12)
  /-- XORI, R136. -/
  | xori (rd rs1 : XReg) (imm : BitVec 12)
  /-- ORI, R137. -/
  | ori (rd rs1 : XReg) (imm : BitVec 12)
  /-- LDI, R154. -/
  | ldi (rd : XReg) (imm : BitVec 12)
  /-- ANDI, R138. -/
  | andi (rd rs1 : XReg) (imm : BitVec 12)
  /-- SLLI, R139. -/
  | slli (rd rs1 : XReg) (shamt : BitVec 5)
  /-- SRLI, R140. -/
  | srli (rd rs1 : XReg) (shamt : BitVec 5)
  /-- SRAI, R141. -/
  | srai (rd rs1 : XReg) (shamt : BitVec 5)
  /-- ADD, R142. -/
  | add (rd rs1 rs2 : XReg)
  /-- SUB, R143. -/
  | sub (rd rs1 rs2 : XReg)
  /-- MUL, R144. -/
  | mul (rd rs1 rs2 : XReg)
  /-- SLL, R145. -/
  | sll (rd rs1 rs2 : XReg)
  /-- SLT, R146. -/
  | slt (rd rs1 rs2 : XReg)
  /-- SLTU, R147. -/
  | sltu (rd rs1 rs2 : XReg)
  /-- XOR, R148. -/
  | xor (rd rs1 rs2 : XReg)
  /-- SRL, R149. -/
  | srl (rd rs1 rs2 : XReg)
  /-- SRA, R150. -/
  | sra (rd rs1 rs2 : XReg)
  /-- OR, R151. -/
  | or (rd rs1 rs2 : XReg)
  /-- MOV, R155. -/
  | mov (rd rs1 : XReg)
  /-- AND, R152. -/
  | and (rd rs1 rs2 : XReg)
  /-- FADD, R220. -/
  | fadd (frd frs1 frs2 : FReg) (rm : BitVec 3)
  /-- FSUB, R221. -/
  | fsub (frd frs1 frs2 : FReg) (rm : BitVec 3)
  /-- FMUL, R222. -/
  | fmul (frd frs1 frs2 : FReg) (rm : BitVec 3)
  /-- FDIV, R223. -/
  | fdiv (frd frs1 frs2 : FReg) (rm : BitVec 3)
  /-- FMIN, R224. -/
  | fmin (frd frs1 frs2 : FReg)
  /-- FMAX, R225. -/
  | fmax (frd frs1 frs2 : FReg)
  /-- FSQRT, R226. -/
  | fsqrt (frd frs1 : FReg) (rm : BitVec 3)
  /-- FSGNJ, R227. -/
  | fsgnj (frd frs1 frs2 : FReg)
  /-- FMOV, R230. -/
  | fmov (frd frs1 : FReg)
  /-- FSGNJN, R228. -/
  | fsgnjn (frd frs1 frs2 : FReg)
  /-- FNEG, R231. -/
  | fneg (frd frs1 : FReg)
  /-- FSGNJX, R229. -/
  | fsgnjx (frd frs1 frs2 : FReg)
  /-- FABS, R232. -/
  | fabs (frd frs1 : FReg)
  /-- FEQ, R233. -/
  | feq (rd : XReg) (frs1 frs2 : FReg)
  /-- FLT, R234. -/
  | flt (rd : XReg) (frs1 frs2 : FReg)
  /-- FLE, R235. -/
  | fle (rd : XReg) (frs1 frs2 : FReg)
  /-- FCVT.W.S, R236. -/
  | fcvtWS (rd : XReg) (frs1 : FReg) (rm : BitVec 3)
  /-- FCVT.WU.S, R237. -/
  | fcvtWuS (rd : XReg) (frs1 : FReg) (rm : BitVec 3)
  /-- FCVT.S.W, R238. -/
  | fcvtSW (frd : FReg) (rs1 : XReg) (rm : BitVec 3)
  /-- FCVT.S.WU, R239. -/
  | fcvtSWu (frd : FReg) (rs1 : XReg) (rm : BitVec 3)
  /-- FMV.X.S, R240. -/
  | fmvXS (rd : XReg) (frs1 : FReg)
  /-- FCLASS, R241. -/
  | fclass (rd : XReg) (frs1 : FReg)
  /-- FMV.S.X, R242. -/
  | fmvSX (frd : FReg) (rs1 : XReg)
  /-- FENCE, R178. -/
  | fence (pred succ : BitVec 4)
  /-- FENCE.I, R179. -/
  | fenceI
  /-- ECALL, R260. -/
  | ecall
  /-- EBREAK, R261. -/
  | ebreak
  /-- ERET, R262. -/
  | eret
  /-- RDCYCLE, R265. -/
  | rdcycle (rd : XReg)
  /-- RDCYCLEH, R266. -/
  | rdcycleh (rd : XReg)
  /-- RDTIME, R267. -/
  | rdtime (rd : XReg)
  /-- RDTIMEH, R268. -/
  | rdtimeh (rd : XReg)
  /-- RDINSTRET, R269. -/
  | rdinstret (rd : XReg)
  /-- RDINSTRETH, R270. -/
  | rdinstreth (rd : XReg)
  /-- WFI, R264. -/
  | wfi
  /-- PFI, R263. -/
  | pfi
  deriving DecidableEq, Repr

/-- The mnemonic of each instruction, as the table prints it. -/
def Instr.mnemonic : Instr → String
  | .lui _ _ => "LUI"
  | .auipc _ _ => "AUIPC"
  | .jal _ _ => "JAL"
  | .call _ => "CALL"
  | .jalr _ _ _ => "JALR"
  | .ret => "RET"
  | .beq _ _ _ => "BEQ"
  | .bne _ _ _ => "BNE"
  | .blt _ _ _ => "BLT"
  | .bge _ _ _ => "BGE"
  | .bltu _ _ _ => "BLTU"
  | .bgeu _ _ _ => "BGEU"
  | .bra _ => "BRA"
  | .lb _ _ _ => "LB"
  | .lh _ _ _ => "LH"
  | .lw _ _ _ => "LW"
  | .lbu _ _ _ => "LBU"
  | .lhu _ _ _ => "LHU"
  | .flw _ _ _ => "FLW"
  | .sb _ _ _ => "SB"
  | .sh _ _ _ => "SH"
  | .sw _ _ _ => "SW"
  | .fsw _ _ _ => "FSW"
  | .addi _ _ _ => "ADDI"
  | .nop => "NOP"
  | .slti _ _ _ => "SLTI"
  | .sltui _ _ _ => "SLTUI"
  | .xori _ _ _ => "XORI"
  | .ori _ _ _ => "ORI"
  | .ldi _ _ => "LDI"
  | .andi _ _ _ => "ANDI"
  | .slli _ _ _ => "SLLI"
  | .srli _ _ _ => "SRLI"
  | .srai _ _ _ => "SRAI"
  | .add _ _ _ => "ADD"
  | .sub _ _ _ => "SUB"
  | .mul _ _ _ => "MUL"
  | .sll _ _ _ => "SLL"
  | .slt _ _ _ => "SLT"
  | .sltu _ _ _ => "SLTU"
  | .xor _ _ _ => "XOR"
  | .srl _ _ _ => "SRL"
  | .sra _ _ _ => "SRA"
  | .or _ _ _ => "OR"
  | .mov _ _ => "MOV"
  | .and _ _ _ => "AND"
  | .fadd _ _ _ _ => "FADD"
  | .fsub _ _ _ _ => "FSUB"
  | .fmul _ _ _ _ => "FMUL"
  | .fdiv _ _ _ _ => "FDIV"
  | .fmin _ _ _ => "FMIN"
  | .fmax _ _ _ => "FMAX"
  | .fsqrt _ _ _ => "FSQRT"
  | .fsgnj _ _ _ => "FSGNJ"
  | .fmov _ _ => "FMOV"
  | .fsgnjn _ _ _ => "FSGNJN"
  | .fneg _ _ => "FNEG"
  | .fsgnjx _ _ _ => "FSGNJX"
  | .fabs _ _ => "FABS"
  | .feq _ _ _ => "FEQ"
  | .flt _ _ _ => "FLT"
  | .fle _ _ _ => "FLE"
  | .fcvtWS _ _ _ => "FCVT.W.S"
  | .fcvtWuS _ _ _ => "FCVT.WU.S"
  | .fcvtSW _ _ _ => "FCVT.S.W"
  | .fcvtSWu _ _ _ => "FCVT.S.WU"
  | .fmvXS _ _ => "FMV.X.S"
  | .fclass _ _ => "FCLASS"
  | .fmvSX _ _ => "FMV.S.X"
  | .fence _ _ => "FENCE"
  | .fenceI => "FENCE.I"
  | .ecall => "ECALL"
  | .ebreak => "EBREAK"
  | .eret => "ERET"
  | .rdcycle _ => "RDCYCLE"
  | .rdcycleh _ => "RDCYCLEH"
  | .rdtime _ => "RDTIME"
  | .rdtimeh _ => "RDTIMEH"
  | .rdinstret _ => "RDINSTRET"
  | .rdinstreth _ => "RDINSTRETH"
  | .wfi => "WFI"
  | .pfi => "PFI"

/-- The alternate spellings of R118, each with the mnemonic it is a second spelling of. -/
def alternateMnemonics : List (String × String) :=
  [("LDB", "LB"), ("LDW", "LH"), ("LDT", "LW"), ("LDBU", "LBU"), ("LDWU", "LHU"), ("LDFT", "FLW"),
   ("STB", "SB"), ("STW", "SH"), ("STT", "SW"), ("STFT", "FSW"), ("EORI", "XORI"), ("SHLI", "SLLI"),
   ("SHRI", "SRLI"), ("ASRI", "SRAI"), ("SHL", "SLL"), ("EOR", "XOR"), ("SHR", "SRL"), ("ASR", "SRA"),
   ("RTS", "RET")]

/-- The aliases of x0 to x31, the same for both banks (spec/10_state.md R24). -/
def xRegAliases : List String :=
  ["zero", "ra", "fp", "s1", "s2", "s3", "s4", "s5", "s6", "s7", "s8", "s9", "s10", "s11", "sp", "tp",
   "v0", "v1", "a0", "a1", "a2", "a3", "a4", "a5", "a6", "a7", "t0", "t1", "t2", "t3", "t4", "gp"]

/-- x1, the return address register that CALL writes and RET reads (R24, R185). -/
def ra : XReg := 1

/-- x14, the stack pointer (R24, R185); no instruction treats it specially. -/
def sp : XReg := 14

/-- Why a word is no instruction of the table (R113, R115). -/
inductive DecodeError where
  /-- Fewer than the four bytes of an instruction (R90). -/
  | truncated
  /-- A major opcode other than the fourteen of R112. -/
  | unlistedOpcode (opcode : BitVec 7)
  /-- An unlisted function in bits 14..12 under a listed opcode. -/
  | unlistedFunct3 (opcode : BitVec 7) (funct3 : BitVec 3)
  /-- An unlisted function in bits 31..25 under opcode 19 (shifts) or 51. -/
  | unlistedFunct7 (opcode : BitVec 7) (funct3 : BitVec 3) (funct7 : BitVec 7)
  /-- A floating-point word with an unlisted function, format or selector. -/
  | unlistedFloat (funct7 : BitVec 7) (bits24to20 : BitVec 5) (bits14to12 : BitVec 3)
  /-- A word of opcode 15 with a constant position of FENCE or FENCE.I not as printed. -/
  | unlistedFence (bits31to7 : BitVec 25)
  /-- A word of opcode 115 other than the eleven listed. -/
  | unlistedSystem (bits31to7 : BitVec 25)
  deriving DecidableEq, Repr

end Sys2Proof
end

