-- ==== Sys2Proof/WellFormed.lean ====
section
/-! DEFINITION. Well-formed instructions. Every field of Instr holds exactly the bits its encoding carries, so every value
of a field is legal (spec/30_encoding.md R110, R111; a reserved `rm` is a matter of meaning, R113). What is left to check:
a word that an extended mnemonic spells (R117) is written with the extended mnemonic, so that each word has one
well-formed instruction. Log 35. -/

namespace Sys2Proof

/-- One spelling per word: the nine instructions that an extended mnemonic abbreviates are not written with the
operands that R117 fixes. -/
def Instr.wellFormed : Instr → Bool
  | .lui _ _ => true
  | .auipc _ _ => true
  | .jal rd _ => rd != 1
  | .call _ => true
  | .jalr rd rs1 imm => !(rd == 0 && rs1 == 1 && imm == 0)
  | .ret => true
  | .beq rs1 rs2 _ => !(rs1 == 0 && rs2 == 0)
  | .bne _ _ _ => true
  | .blt _ _ _ => true
  | .bge _ _ _ => true
  | .bltu _ _ _ => true
  | .bgeu _ _ _ => true
  | .bra _ => true
  | .lb _ _ _ => true
  | .lh _ _ _ => true
  | .lw _ _ _ => true
  | .lbu _ _ _ => true
  | .lhu _ _ _ => true
  | .flw _ _ _ => true
  | .sb _ _ _ => true
  | .sh _ _ _ => true
  | .sw _ _ _ => true
  | .fsw _ _ _ => true
  | .addi rd rs1 imm => !(rd == 0 && rs1 == 0 && imm == 0)
  | .nop => true
  | .slti _ _ _ => true
  | .sltui _ _ _ => true
  | .xori _ _ _ => true
  | .ori _ rs1 _ => rs1 != 0
  | .ldi _ _ => true
  | .andi _ _ _ => true
  | .slli _ _ _ => true
  | .srli _ _ _ => true
  | .srai _ _ _ => true
  | .add _ _ _ => true
  | .sub _ _ _ => true
  | .mul _ _ _ => true
  | .sll _ _ _ => true
  | .slt _ _ _ => true
  | .sltu _ _ _ => true
  | .xor _ _ _ => true
  | .srl _ _ _ => true
  | .sra _ _ _ => true
  | .or _ _ rs2 => rs2 != 0
  | .mov _ _ => true
  | .and _ _ _ => true
  | .fadd _ _ _ _ => true
  | .fsub _ _ _ _ => true
  | .fmul _ _ _ _ => true
  | .fdiv _ _ _ _ => true
  | .fmin _ _ _ => true
  | .fmax _ _ _ => true
  | .fsqrt _ _ _ => true
  | .fsgnj _ frs1 frs2 => frs1 != frs2
  | .fmov _ _ => true
  | .fsgnjn _ frs1 frs2 => frs1 != frs2
  | .fneg _ _ => true
  | .fsgnjx _ frs1 frs2 => frs1 != frs2
  | .fabs _ _ => true
  | .feq _ _ _ => true
  | .flt _ _ _ => true
  | .fle _ _ _ => true
  | .fcvtWS _ _ _ => true
  | .fcvtWuS _ _ _ => true
  | .fcvtSW _ _ _ => true
  | .fcvtSWu _ _ _ => true
  | .fmvXS _ _ => true
  | .fclass _ _ => true
  | .fmvSX _ _ => true
  | .fence _ _ => true
  | .fenceI => true
  | .ecall => true
  | .ebreak => true
  | .eret => true
  | .rdcycle _ => true
  | .rdcycleh _ => true
  | .rdtime _ => true
  | .rdtimeh _ => true
  | .rdinstret _ => true
  | .rdinstreth _ => true
  | .wfi => true
  | .pfi => true

end Sys2Proof
end

