-- ==== Sys2Proof/Decode.lean ====
section
/-! DEFINITION. Decoding and encoding (spec/30_encoding.md): the fields and immediates of a word (R93 to R111), the
decoder (R112, R113, R115), total on any word and on any bytes, the encoder, and the byte order in which a word lies in
memory (spec/20_memory.md R62). -/

namespace Sys2Proof

/-! ## Parameters of the encoding -/

/-- BYTE_ORDER (R62, D1). Log 7. -/
def byteOrder : ByteOrder := .little

/-- ENCODING_VARIANT (R114, D7): the table's printed values. Log 13. -/
def encodingVariant : EncodingVariant := .source

/-- Bits 31..25 of SRAI (R114, R141). -/
def sraiFunct7 : BitVec 7 :=
  match encodingVariant with
  | .source => 16
  | .riscv => 32

/-- The five-bit function of FSGNJ, FSGNJN and FSGNJX (R114, R227). -/
def fsgnjFunct5 : BitVec 5 :=
  match encodingVariant with
  | .source => 16
  | .riscv => 4

/-- The five-bit function of FCVT.S.W and FCVT.S.WU (R114, R238). -/
def fcvtSFunct5 : BitVec 5 :=
  match encodingVariant with
  | .source => 25
  | .riscv => 26

/-- Bits 14..12 of the six counter reads (R114, R265). -/
def rdFunct3 : BitVec 3 :=
  match encodingVariant with
  | .source => 1
  | .riscv => 2

/-- Bits 31..20 of WFI (R114, R264). -/
def wfiCode : BitVec 12 :=
  match encodingVariant with
  | .source => 0x101
  | .riscv => 0x105

/-- Bits 31..25 of a floating-point word: a five-bit function and the two bits 00 (R100). -/
def fpFunct7 (funct5 : BitVec 5) : BitVec 7 := funct5 ++ 0#2

/-! ## Bytes of a word -/

/-- The number that bytes spell, the first byte the least significant. -/
def natOfBytes : List Byte → Nat
  | [] => 0
  | b :: bs => b.toNat + 256 * natOfBytes bs

/-- Bytes at rising addresses put least significant first, by BYTE_ORDER (R62). -/
def leastFirst (bs : List Byte) : List Byte :=
  match byteOrder with
  | .little => bs
  | .big => bs.reverse

/-- The 32-bit value of up to four bytes at rising addresses, zero-extended (R62, R63). -/
def wordOfBytes (bs : List Byte) : Word := BitVec.ofNat 32 (natOfBytes (leastFirst bs))

/-- The `n` low bytes of a word, the least significant first. -/
def lowBytes : Nat → Word → List Byte
  | 0, _ => []
  | n + 1, w => w.extractLsb' 0 8 :: lowBytes n (w >>> 8)

/-- The `n` low bytes of a word in the order in which they lie at rising addresses (R62, R64). -/
def bytesOfWord (n : Nat) (w : Word) : List Byte := leastFirst (lowBytes n w)

/-! ## Fields of a word (R91, R105 to R111) -/

/-- Bits 6..0, the major opcode (R90). -/
def opcodeOf (w : Word) : BitVec 7 := w.extractLsb' 0 7

/-- Bits 11..7, `Rd` or `FRd` (R111). -/
def rdOf (w : Word) : BitVec 5 := w.extractLsb' 7 5

/-- Bits 14..12, the three-bit function or `rm` (R111). -/
def funct3Of (w : Word) : BitVec 3 := w.extractLsb' 12 3

/-- Bits 19..15, `Rs1` or `FRs1` (R111). -/
def rs1Of (w : Word) : BitVec 5 := w.extractLsb' 15 5

/-- Bits 24..20, `Rs2`, `FRs2`, `shamt` or a selector (R110, R111). -/
def rs2Of (w : Word) : BitVec 5 := w.extractLsb' 20 5

/-- Bits 31..25. -/
def funct7Of (w : Word) : BitVec 7 := w.extractLsb' 25 7

/-- Bits 31..20, the twelve-bit function code of the SYS format (R102). -/
def funct12Of (w : Word) : BitVec 12 := w.extractLsb' 20 12

/-- imm[31:12] of the U format (R93). -/
def immUOf (w : Word) : BitVec 20 := w.extractLsb' 12 20

/-- imm[11:0] of the RI, ML and JALR formats (R95). -/
def immIOf (w : Word) : BitVec 12 := w.extractLsb' 20 12

/-- imm[11:0] of the MS format: inst[31:25] :: inst[11:7] (R98, R107). -/
def immSOf (w : Word) : BitVec 12 := w.extractLsb' 25 7 ++ w.extractLsb' 7 5

/-- imm[12:1] of the BCC format: inst[31] :: inst[7] :: inst[30:25] :: inst[11:8] (R97, R108). -/
def offBOf (w : Word) : BitVec 12 :=
  w.extractLsb' 31 1 ++ w.extractLsb' 7 1 ++ w.extractLsb' 25 6 ++ w.extractLsb' 8 4

/-- imm[20:1] of the JAL format: inst[31] :: inst[19:12] :: inst[20] :: inst[30:21] (R94, R109). -/
def offJOf (w : Word) : BitVec 20 :=
  w.extractLsb' 31 1 ++ w.extractLsb' 12 8 ++ w.extractLsb' 20 1 ++ w.extractLsb' 21 10

/-! ## The decoder -/

/-- Opcode 99, format BCC (R112). -/
def decodeBranch (w : Word) : Except DecodeError Instr :=
  if funct3Of w = 0 then .ok (.beq (rs1Of w) (rs2Of w) (offBOf w))
  else if funct3Of w = 1 then .ok (.bne (rs1Of w) (rs2Of w) (offBOf w))
  else if funct3Of w = 4 then .ok (.blt (rs1Of w) (rs2Of w) (offBOf w))
  else if funct3Of w = 5 then .ok (.bge (rs1Of w) (rs2Of w) (offBOf w))
  else if funct3Of w = 6 then .ok (.bltu (rs1Of w) (rs2Of w) (offBOf w))
  else if funct3Of w = 7 then .ok (.bgeu (rs1Of w) (rs2Of w) (offBOf w))
  else .error (.unlistedFunct3 99 (funct3Of w))

/-- Opcode 3, format ML (R112). -/
def decodeLoad (w : Word) : Except DecodeError Instr :=
  if funct3Of w = 0 then .ok (.lb (rdOf w) (rs1Of w) (immIOf w))
  else if funct3Of w = 1 then .ok (.lh (rdOf w) (rs1Of w) (immIOf w))
  else if funct3Of w = 2 then .ok (.lw (rdOf w) (rs1Of w) (immIOf w))
  else if funct3Of w = 4 then .ok (.lbu (rdOf w) (rs1Of w) (immIOf w))
  else if funct3Of w = 5 then .ok (.lhu (rdOf w) (rs1Of w) (immIOf w))
  else .error (.unlistedFunct3 3 (funct3Of w))

/-- Opcode 35, format MS (R112). -/
def decodeStore (w : Word) : Except DecodeError Instr :=
  if funct3Of w = 0 then .ok (.sb (rs2Of w) (rs1Of w) (immSOf w))
  else if funct3Of w = 1 then .ok (.sh (rs2Of w) (rs1Of w) (immSOf w))
  else if funct3Of w = 2 then .ok (.sw (rs2Of w) (rs1Of w) (immSOf w))
  else .error (.unlistedFunct3 35 (funct3Of w))

/-- Opcode 19, formats RI and RI-shift (R112). -/
def decodeOpImm (w : Word) : Except DecodeError Instr :=
  if funct3Of w = 0 then .ok (.addi (rdOf w) (rs1Of w) (immIOf w))
  else if funct3Of w = 1 then
    if funct7Of w = 0 then .ok (.slli (rdOf w) (rs1Of w) (rs2Of w))
    else .error (.unlistedFunct7 19 1 (funct7Of w))
  else if funct3Of w = 2 then .ok (.slti (rdOf w) (rs1Of w) (immIOf w))
  else if funct3Of w = 3 then .ok (.sltui (rdOf w) (rs1Of w) (immIOf w))
  else if funct3Of w = 4 then .ok (.xori (rdOf w) (rs1Of w) (immIOf w))
  else if funct3Of w = 5 then
    if funct7Of w = 0 then .ok (.srli (rdOf w) (rs1Of w) (rs2Of w))
    else if funct7Of w = sraiFunct7 then .ok (.srai (rdOf w) (rs1Of w) (rs2Of w))
    else .error (.unlistedFunct7 19 5 (funct7Of w))
  else if funct3Of w = 6 then .ok (.ori (rdOf w) (rs1Of w) (immIOf w))
  else .ok (.andi (rdOf w) (rs1Of w) (immIOf w))

/-- Opcode 51, format R2 (R112). -/
def decodeOp (w : Word) : Except DecodeError Instr :=
  if funct7Of w = 0 then
    if funct3Of w = 0 then .ok (.add (rdOf w) (rs1Of w) (rs2Of w))
    else if funct3Of w = 1 then .ok (.sll (rdOf w) (rs1Of w) (rs2Of w))
    else if funct3Of w = 2 then .ok (.slt (rdOf w) (rs1Of w) (rs2Of w))
    else if funct3Of w = 3 then .ok (.sltu (rdOf w) (rs1Of w) (rs2Of w))
    else if funct3Of w = 4 then .ok (.xor (rdOf w) (rs1Of w) (rs2Of w))
    else if funct3Of w = 5 then .ok (.srl (rdOf w) (rs1Of w) (rs2Of w))
    else if funct3Of w = 6 then .ok (.or (rdOf w) (rs1Of w) (rs2Of w))
    else .ok (.and (rdOf w) (rs1Of w) (rs2Of w))
  else if funct7Of w = 32 then
    if funct3Of w = 0 then .ok (.sub (rdOf w) (rs1Of w) (rs2Of w))
    else if funct3Of w = 5 then .ok (.sra (rdOf w) (rs1Of w) (rs2Of w))
    else .error (.unlistedFunct7 51 (funct3Of w) 32)
  else if funct7Of w = 1 then
    if funct3Of w = 0 then .ok (.mul (rdOf w) (rs1Of w) (rs2Of w))
    else .error (.unlistedFunct7 51 (funct3Of w) 1)
  else .error (.unlistedFunct7 51 (funct3Of w) (funct7Of w))

/-- Opcode 83 (R112), the rows whose bits 14..12 hold `rm`; `none` for any other word. -/
def decodeFloatRm (w : Word) : Option Instr :=
  if funct7Of w = fpFunct7 0 then some (.fadd (rdOf w) (rs1Of w) (rs2Of w) (funct3Of w))
  else if funct7Of w = fpFunct7 1 then some (.fsub (rdOf w) (rs1Of w) (rs2Of w) (funct3Of w))
  else if funct7Of w = fpFunct7 2 then some (.fmul (rdOf w) (rs1Of w) (rs2Of w) (funct3Of w))
  else if funct7Of w = fpFunct7 3 then some (.fdiv (rdOf w) (rs1Of w) (rs2Of w) (funct3Of w))
  else if funct7Of w = fpFunct7 11 ∧ rs2Of w = 0 then some (.fsqrt (rdOf w) (rs1Of w) (funct3Of w))
  else if funct7Of w = fpFunct7 24 ∧ rs2Of w = 0 then some (.fcvtWS (rdOf w) (rs1Of w) (funct3Of w))
  else if funct7Of w = fpFunct7 24 ∧ rs2Of w = 1 then some (.fcvtWuS (rdOf w) (rs1Of w) (funct3Of w))
  else if funct7Of w = fpFunct7 fcvtSFunct5 ∧ rs2Of w = 0 then some (.fcvtSW (rdOf w) (rs1Of w) (funct3Of w))
  else if funct7Of w = fpFunct7 fcvtSFunct5 ∧ rs2Of w = 1 then some (.fcvtSWu (rdOf w) (rs1Of w) (funct3Of w))
  else none

/-- Opcode 83 (R112), the rows whose bits 14..12 are a selector; `none` for any other word. -/
def decodeFloatSel (w : Word) : Option Instr :=
  if funct7Of w = fpFunct7 5 ∧ funct3Of w = 0 then some (.fmin (rdOf w) (rs1Of w) (rs2Of w))
  else if funct7Of w = fpFunct7 5 ∧ funct3Of w = 1 then some (.fmax (rdOf w) (rs1Of w) (rs2Of w))
  else if funct7Of w = fpFunct7 fsgnjFunct5 ∧ funct3Of w = 0 then some (.fsgnj (rdOf w) (rs1Of w) (rs2Of w))
  else if funct7Of w = fpFunct7 fsgnjFunct5 ∧ funct3Of w = 1 then some (.fsgnjn (rdOf w) (rs1Of w) (rs2Of w))
  else if funct7Of w = fpFunct7 fsgnjFunct5 ∧ funct3Of w = 2 then some (.fsgnjx (rdOf w) (rs1Of w) (rs2Of w))
  else if funct7Of w = fpFunct7 20 ∧ funct3Of w = 0 then some (.fle (rdOf w) (rs1Of w) (rs2Of w))
  else if funct7Of w = fpFunct7 20 ∧ funct3Of w = 1 then some (.flt (rdOf w) (rs1Of w) (rs2Of w))
  else if funct7Of w = fpFunct7 20 ∧ funct3Of w = 2 then some (.feq (rdOf w) (rs1Of w) (rs2Of w))
  else if funct7Of w = fpFunct7 28 ∧ rs2Of w = 0 ∧ funct3Of w = 0 then some (.fmvXS (rdOf w) (rs1Of w))
  else if funct7Of w = fpFunct7 28 ∧ rs2Of w = 0 ∧ funct3Of w = 1 then some (.fclass (rdOf w) (rs1Of w))
  else if funct7Of w = fpFunct7 30 ∧ rs2Of w = 0 ∧ funct3Of w = 0 then some (.fmvSX (rdOf w) (rs1Of w))
  else none

/-- Opcode 83, format FLT (R112). -/
def decodeFloat (w : Word) : Except DecodeError Instr :=
  match decodeFloatRm w with
  | some i => .ok i
  | none =>
    match decodeFloatSel w with
    | some i => .ok i
    | none => .error (.unlistedFloat (funct7Of w) (rs2Of w) (funct3Of w))

/-- Opcode 15, format FENCE (R101, R112): bits 31..28, 19..15 and 11..7 are 0, and 27..20 too for FENCE.I. -/
def decodeFence (w : Word) : Except DecodeError Instr :=
  if rs1Of w = 0 ∧ rdOf w = 0 ∧ w.extractLsb' 28 4 = 0 ∧ funct3Of w = 0 then
    .ok (.fence (w.extractLsb' 24 4) (w.extractLsb' 20 4))
  else if rs1Of w = 0 ∧ rdOf w = 0 ∧ funct12Of w = 0 ∧ funct3Of w = 1 then .ok .fenceI
  else .error (.unlistedFence (w.extractLsb' 7 25))

/-- Opcode 115, format SYS (R102, R112). -/
def decodeSystem (w : Word) : Except DecodeError Instr :=
  if rs1Of w = 0 ∧ funct3Of w = 0 ∧ rdOf w = 0 ∧ funct12Of w = 0x000 then .ok .ecall
  else if rs1Of w = 0 ∧ funct3Of w = 0 ∧ rdOf w = 0 ∧ funct12Of w = 0x001 then .ok .ebreak
  else if rs1Of w = 0 ∧ funct3Of w = 0 ∧ rdOf w = 0 ∧ funct12Of w = 0x100 then .ok .eret
  else if rs1Of w = 0 ∧ funct3Of w = 0 ∧ rdOf w = 0 ∧ funct12Of w = wfiCode then .ok .wfi
  else if rs1Of w = 0 ∧ funct3Of w = 0 ∧ rdOf w = 0 ∧ funct12Of w = 0x103 then .ok .pfi
  else if rs1Of w = 0 ∧ funct3Of w = rdFunct3 ∧ funct12Of w = 0xC00 then .ok (.rdcycle (rdOf w))
  else if rs1Of w = 0 ∧ funct3Of w = rdFunct3 ∧ funct12Of w = 0xC80 then .ok (.rdcycleh (rdOf w))
  else if rs1Of w = 0 ∧ funct3Of w = rdFunct3 ∧ funct12Of w = 0xC01 then .ok (.rdtime (rdOf w))
  else if rs1Of w = 0 ∧ funct3Of w = rdFunct3 ∧ funct12Of w = 0xC81 then .ok (.rdtimeh (rdOf w))
  else if rs1Of w = 0 ∧ funct3Of w = rdFunct3 ∧ funct12Of w = 0xC02 then .ok (.rdinstret (rdOf w))
  else if rs1Of w = 0 ∧ funct3Of w = rdFunct3 ∧ funct12Of w = 0xC82 then .ok (.rdinstreth (rdOf w))
  else .error (.unlistedSystem (w.extractLsb' 7 25))

/-- The machine instruction of a word: one of the 73 rows that have no extended mnemonic, or an error by name
(R112, R113, R115). -/
def decodeBase (w : Word) : Except DecodeError Instr :=
  if opcodeOf w = 55 then .ok (.lui (rdOf w) (immUOf w))
  else if opcodeOf w = 23 then .ok (.auipc (rdOf w) (immUOf w))
  else if opcodeOf w = 111 then .ok (.jal (rdOf w) (offJOf w))
  else if opcodeOf w = 103 then
    if funct3Of w = 0 then .ok (.jalr (rdOf w) (rs1Of w) (immIOf w))
    else .error (.unlistedFunct3 103 (funct3Of w))
  else if opcodeOf w = 99 then decodeBranch w
  else if opcodeOf w = 3 then decodeLoad w
  else if opcodeOf w = 7 then
    if funct3Of w = 2 then .ok (.flw (rdOf w) (rs1Of w) (immIOf w))
    else .error (.unlistedFunct3 7 (funct3Of w))
  else if opcodeOf w = 35 then decodeStore w
  else if opcodeOf w = 39 then
    if funct3Of w = 2 then .ok (.fsw (rs2Of w) (rs1Of w) (immSOf w))
    else .error (.unlistedFunct3 39 (funct3Of w))
  else if opcodeOf w = 19 then decodeOpImm w
  else if opcodeOf w = 51 then decodeOp w
  else if opcodeOf w = 83 then decodeFloat w
  else if opcodeOf w = 15 then decodeFence w
  else if opcodeOf w = 115 then decodeSystem w
  else .error (.unlistedOpcode (opcodeOf w))

/-- The extended mnemonic that spells an instruction's word, where R117 has one. -/
def Instr.extended : Instr → Option Instr
  | .jal rd off => if rd = 1 then some (.call off) else none
  | .jalr rd rs1 imm => if rd = 0 ∧ rs1 = 1 ∧ imm = 0 then some .ret else none
  | .beq rs1 rs2 off => if rs1 = 0 ∧ rs2 = 0 then some (.bra off) else none
  | .addi rd rs1 imm => if rd = 0 ∧ rs1 = 0 ∧ imm = 0 then some .nop else none
  | .ori rd rs1 imm => if rs1 = 0 then some (.ldi rd imm) else none
  | .or rd rs1 rs2 => if rs2 = 0 then some (.mov rd rs1) else none
  | .fsgnj frd frs1 frs2 => if frs1 = frs2 then some (.fmov frd frs1) else none
  | .fsgnjn frd frs1 frs2 => if frs1 = frs2 then some (.fneg frd frs1) else none
  | .fsgnjx frd frs1 frs2 => if frs1 = frs2 then some (.fabs frd frs1) else none
  | _ => none

/-- The spelling of an instruction that the decoder answers: the extended mnemonic where there is one. Log 35. -/
def Instr.spell (i : Instr) : Instr := i.extended.getD i

/-- The instruction of a word, or the reason it has none. -/
def decode (w : Word) : Except DecodeError Instr :=
  match decodeBase w with
  | .ok i => .ok i.spell
  | .error e => .error e

/-- The instruction that starts at the first of some bytes at rising addresses (R62, R90). -/
def decodeBytes (bs : List Byte) : Except DecodeError Instr :=
  if bs.length < 4 then .error .truncated else decode (wordOfBytes (bs.take 4))

/-! ## The encoder -/

/-- Format U (R93). -/
def encodeU (imm : BitVec 20) (rd : BitVec 5) (op : BitVec 7) : Word := imm ++ rd ++ op

/-- Format JAL (R94). -/
def encodeJ (off : BitVec 20) (rd : BitVec 5) : Word :=
  off.extractLsb' 19 1 ++ off.extractLsb' 0 10 ++ off.extractLsb' 10 1 ++ off.extractLsb' 11 8 ++ rd ++ 111#7

/-- Formats JALR, RI and ML (R95). -/
def encodeI (imm : BitVec 12) (rs1 : BitVec 5) (f3 : BitVec 3) (rd : BitVec 5) (op : BitVec 7) : Word :=
  imm ++ rs1 ++ f3 ++ rd ++ op

/-- Formats R2, RI-shift and FLT: the six columns of R91 (R96, R99, R100). -/
def encodeR (f7 : BitVec 7) (rs2 rs1 : BitVec 5) (f3 : BitVec 3) (rd : BitVec 5) (op : BitVec 7) : Word :=
  f7 ++ rs2 ++ rs1 ++ f3 ++ rd ++ op

/-- Format BCC (R97). -/
def encodeB (off : BitVec 12) (rs2 rs1 : BitVec 5) (f3 : BitVec 3) : Word :=
  off.extractLsb' 11 1 ++ off.extractLsb' 4 6 ++ rs2 ++ rs1 ++ f3 ++ off.extractLsb' 0 4 ++ off.extractLsb' 10 1 ++
    99#7

/-- Format MS (R98). -/
def encodeS (imm : BitVec 12) (rs2 rs1 : BitVec 5) (f3 : BitVec 3) (op : BitVec 7) : Word :=
  imm.extractLsb' 5 7 ++ rs2 ++ rs1 ++ f3 ++ imm.extractLsb' 0 5 ++ op

/-- Format FENCE (R101). -/
def encodeFence (pred succ : BitVec 4) (f3 : BitVec 3) : Word :=
  0#4 ++ pred ++ succ ++ 0#5 ++ f3 ++ 0#5 ++ 15#7

/-- Format SYS (R102). -/
def encodeSys (code : BitVec 12) (f3 : BitVec 3) (rd : BitVec 5) : Word :=
  code ++ 0#5 ++ f3 ++ rd ++ 115#7

/-- The word of an instruction, from the encoding line of its rule. -/
def encode : Instr → Word
  | .lui rd imm => encodeU imm rd 55
  | .auipc rd imm => encodeU imm rd 23
  | .jal rd off => encodeJ off rd
  | .call off => encodeJ off 1
  | .jalr rd rs1 imm => encodeI imm rs1 0 rd 103
  | .ret => encodeI 0 1 0 0 103
  | .beq rs1 rs2 off => encodeB off rs2 rs1 0
  | .bne rs1 rs2 off => encodeB off rs2 rs1 1
  | .blt rs1 rs2 off => encodeB off rs2 rs1 4
  | .bge rs1 rs2 off => encodeB off rs2 rs1 5
  | .bltu rs1 rs2 off => encodeB off rs2 rs1 6
  | .bgeu rs1 rs2 off => encodeB off rs2 rs1 7
  | .bra off => encodeB off 0 0 0
  | .lb rd rs1 imm => encodeI imm rs1 0 rd 3
  | .lh rd rs1 imm => encodeI imm rs1 1 rd 3
  | .lw rd rs1 imm => encodeI imm rs1 2 rd 3
  | .lbu rd rs1 imm => encodeI imm rs1 4 rd 3
  | .lhu rd rs1 imm => encodeI imm rs1 5 rd 3
  | .flw frd rs1 imm => encodeI imm rs1 2 frd 7
  | .sb rs2 rs1 imm => encodeS imm rs2 rs1 0 35
  | .sh rs2 rs1 imm => encodeS imm rs2 rs1 1 35
  | .sw rs2 rs1 imm => encodeS imm rs2 rs1 2 35
  | .fsw frs2 rs1 imm => encodeS imm frs2 rs1 2 39
  | .addi rd rs1 imm => encodeI imm rs1 0 rd 19
  | .nop => encodeI 0 0 0 0 19
  | .slti rd rs1 imm => encodeI imm rs1 2 rd 19
  | .sltui rd rs1 imm => encodeI imm rs1 3 rd 19
  | .xori rd rs1 imm => encodeI imm rs1 4 rd 19
  | .ori rd rs1 imm => encodeI imm rs1 6 rd 19
  | .ldi rd imm => encodeI imm 0 6 rd 19
  | .andi rd rs1 imm => encodeI imm rs1 7 rd 19
  | .slli rd rs1 shamt => encodeR 0 shamt rs1 1 rd 19
  | .srli rd rs1 shamt => encodeR 0 shamt rs1 5 rd 19
  | .srai rd rs1 shamt => encodeR sraiFunct7 shamt rs1 5 rd 19
  | .add rd rs1 rs2 => encodeR 0 rs2 rs1 0 rd 51
  | .sub rd rs1 rs2 => encodeR 32 rs2 rs1 0 rd 51
  | .mul rd rs1 rs2 => encodeR 1 rs2 rs1 0 rd 51
  | .sll rd rs1 rs2 => encodeR 0 rs2 rs1 1 rd 51
  | .slt rd rs1 rs2 => encodeR 0 rs2 rs1 2 rd 51
  | .sltu rd rs1 rs2 => encodeR 0 rs2 rs1 3 rd 51
  | .xor rd rs1 rs2 => encodeR 0 rs2 rs1 4 rd 51
  | .srl rd rs1 rs2 => encodeR 0 rs2 rs1 5 rd 51
  | .sra rd rs1 rs2 => encodeR 32 rs2 rs1 5 rd 51
  | .or rd rs1 rs2 => encodeR 0 rs2 rs1 6 rd 51
  | .mov rd rs1 => encodeR 0 0 rs1 6 rd 51
  | .and rd rs1 rs2 => encodeR 0 rs2 rs1 7 rd 51
  | .fadd frd frs1 frs2 rm => encodeR (fpFunct7 0) frs2 frs1 rm frd 83
  | .fsub frd frs1 frs2 rm => encodeR (fpFunct7 1) frs2 frs1 rm frd 83
  | .fmul frd frs1 frs2 rm => encodeR (fpFunct7 2) frs2 frs1 rm frd 83
  | .fdiv frd frs1 frs2 rm => encodeR (fpFunct7 3) frs2 frs1 rm frd 83
  | .fmin frd frs1 frs2 => encodeR (fpFunct7 5) frs2 frs1 0 frd 83
  | .fmax frd frs1 frs2 => encodeR (fpFunct7 5) frs2 frs1 1 frd 83
  | .fsqrt frd frs1 rm => encodeR (fpFunct7 11) 0 frs1 rm frd 83
  | .fsgnj frd frs1 frs2 => encodeR (fpFunct7 fsgnjFunct5) frs2 frs1 0 frd 83
  | .fmov frd frs1 => encodeR (fpFunct7 fsgnjFunct5) frs1 frs1 0 frd 83
  | .fsgnjn frd frs1 frs2 => encodeR (fpFunct7 fsgnjFunct5) frs2 frs1 1 frd 83
  | .fneg frd frs1 => encodeR (fpFunct7 fsgnjFunct5) frs1 frs1 1 frd 83
  | .fsgnjx frd frs1 frs2 => encodeR (fpFunct7 fsgnjFunct5) frs2 frs1 2 frd 83
  | .fabs frd frs1 => encodeR (fpFunct7 fsgnjFunct5) frs1 frs1 2 frd 83
  | .feq rd frs1 frs2 => encodeR (fpFunct7 20) frs2 frs1 2 rd 83
  | .flt rd frs1 frs2 => encodeR (fpFunct7 20) frs2 frs1 1 rd 83
  | .fle rd frs1 frs2 => encodeR (fpFunct7 20) frs2 frs1 0 rd 83
  | .fcvtWS rd frs1 rm => encodeR (fpFunct7 24) 0 frs1 rm rd 83
  | .fcvtWuS rd frs1 rm => encodeR (fpFunct7 24) 1 frs1 rm rd 83
  | .fcvtSW frd rs1 rm => encodeR (fpFunct7 fcvtSFunct5) 0 rs1 rm frd 83
  | .fcvtSWu frd rs1 rm => encodeR (fpFunct7 fcvtSFunct5) 1 rs1 rm frd 83
  | .fmvXS rd frs1 => encodeR (fpFunct7 28) 0 frs1 0 rd 83
  | .fclass rd frs1 => encodeR (fpFunct7 28) 0 frs1 1 rd 83
  | .fmvSX frd rs1 => encodeR (fpFunct7 30) 0 rs1 0 frd 83
  | .fence pred succ => encodeFence pred succ 0
  | .fenceI => encodeFence 0 0 1
  | .ecall => encodeSys 0x000 0 0
  | .ebreak => encodeSys 0x001 0 0
  | .eret => encodeSys 0x100 0 0
  | .rdcycle rd => encodeSys 0xC00 rdFunct3 rd
  | .rdcycleh rd => encodeSys 0xC80 rdFunct3 rd
  | .rdtime rd => encodeSys 0xC01 rdFunct3 rd
  | .rdtimeh rd => encodeSys 0xC81 rdFunct3 rd
  | .rdinstret rd => encodeSys 0xC02 rdFunct3 rd
  | .rdinstreth rd => encodeSys 0xC82 rdFunct3 rd
  | .wfi => encodeSys wfiCode 0 0
  | .pfi => encodeSys 0x103 0 0

/-! ## The table of R113 -/

/-- The match and mask of one row of spec/opcode_table.json. -/
structure TableRow where
  mnemonic : String
  mask : Word
  pattern : Word
  deriving DecidableEq, Repr

/-- A word is an instruction of a row exactly when it agrees with the row's constants (R113). -/
def TableRow.matches (r : TableRow) (w : Word) : Bool := w &&& r.mask == r.pattern

/-- The 73 rows that have no extended mnemonic, as the table prints them under ENCODING_VARIANT = source. -/
def tableRows : List TableRow :=
  [⟨"LUI", 0x0000007F, 0x00000037⟩,
   ⟨"AUIPC", 0x0000007F, 0x00000017⟩,
   ⟨"JAL", 0x0000007F, 0x0000006F⟩,
   ⟨"JALR", 0x0000707F, 0x00000067⟩,
   ⟨"BEQ", 0x0000707F, 0x00000063⟩,
   ⟨"BNE", 0x0000707F, 0x00001063⟩,
   ⟨"BLT", 0x0000707F, 0x00004063⟩,
   ⟨"BGE", 0x0000707F, 0x00005063⟩,
   ⟨"BLTU", 0x0000707F, 0x00006063⟩,
   ⟨"BGEU", 0x0000707F, 0x00007063⟩,
   ⟨"LB", 0x0000707F, 0x00000003⟩,
   ⟨"LH", 0x0000707F, 0x00001003⟩,
   ⟨"LW", 0x0000707F, 0x00002003⟩,
   ⟨"LBU", 0x0000707F, 0x00004003⟩,
   ⟨"LHU", 0x0000707F, 0x00005003⟩,
   ⟨"FLW", 0x0000707F, 0x00002007⟩,
   ⟨"SB", 0x0000707F, 0x00000023⟩,
   ⟨"SH", 0x0000707F, 0x00001023⟩,
   ⟨"SW", 0x0000707F, 0x00002023⟩,
   ⟨"FSW", 0x0000707F, 0x00002027⟩,
   ⟨"ADDI", 0x0000707F, 0x00000013⟩,
   ⟨"SLTI", 0x0000707F, 0x00002013⟩,
   ⟨"SLTUI", 0x0000707F, 0x00003013⟩,
   ⟨"XORI", 0x0000707F, 0x00004013⟩,
   ⟨"ORI", 0x0000707F, 0x00006013⟩] ++
  [⟨"ANDI", 0x0000707F, 0x00007013⟩,
   ⟨"SLLI", 0xFE00707F, 0x00001013⟩,
   ⟨"SRLI", 0xFE00707F, 0x00005013⟩,
   ⟨"SRAI", 0xFE00707F, 0x20005013⟩,
   ⟨"ADD", 0xFE00707F, 0x00000033⟩,
   ⟨"SUB", 0xFE00707F, 0x40000033⟩,
   ⟨"MUL", 0xFE00707F, 0x02000033⟩,
   ⟨"SLL", 0xFE00707F, 0x00001033⟩,
   ⟨"SLT", 0xFE00707F, 0x00002033⟩,
   ⟨"SLTU", 0xFE00707F, 0x00003033⟩,
   ⟨"XOR", 0xFE00707F, 0x00004033⟩,
   ⟨"SRL", 0xFE00707F, 0x00005033⟩,
   ⟨"SRA", 0xFE00707F, 0x40005033⟩,
   ⟨"OR", 0xFE00707F, 0x00006033⟩,
   ⟨"AND", 0xFE00707F, 0x00007033⟩,
   ⟨"FADD", 0xFE00007F, 0x00000053⟩,
   ⟨"FSUB", 0xFE00007F, 0x08000053⟩,
   ⟨"FMUL", 0xFE00007F, 0x10000053⟩,
   ⟨"FDIV", 0xFE00007F, 0x18000053⟩,
   ⟨"FMIN", 0xFE00707F, 0x28000053⟩,
   ⟨"FMAX", 0xFE00707F, 0x28001053⟩,
   ⟨"FSQRT", 0xFFF0007F, 0x58000053⟩,
   ⟨"FSGNJ", 0xFE00707F, 0x80000053⟩,
   ⟨"FSGNJN", 0xFE00707F, 0x80001053⟩,
   ⟨"FSGNJX", 0xFE00707F, 0x80002053⟩] ++
  [⟨"FEQ", 0xFE00707F, 0xA0002053⟩,
   ⟨"FLT", 0xFE00707F, 0xA0001053⟩,
   ⟨"FLE", 0xFE00707F, 0xA0000053⟩,
   ⟨"FCVT.W.S", 0xFFF0007F, 0xC0000053⟩,
   ⟨"FCVT.WU.S", 0xFFF0007F, 0xC0100053⟩,
   ⟨"FCVT.S.W", 0xFFF0007F, 0xC8000053⟩,
   ⟨"FCVT.S.WU", 0xFFF0007F, 0xC8100053⟩,
   ⟨"FMV.X.S", 0xFFF0707F, 0xE0000053⟩,
   ⟨"FCLASS", 0xFFF0707F, 0xE0001053⟩,
   ⟨"FMV.S.X", 0xFFF0707F, 0xF0000053⟩,
   ⟨"FENCE", 0xF00FFFFF, 0x0000000F⟩,
   ⟨"FENCE.I", 0xFFFFFFFF, 0x0000100F⟩,
   ⟨"ECALL", 0xFFFFFFFF, 0x00000073⟩,
   ⟨"EBREAK", 0xFFFFFFFF, 0x00100073⟩,
   ⟨"ERET", 0xFFFFFFFF, 0x10000073⟩,
   ⟨"RDCYCLE", 0xFFFFF07F, 0xC0001073⟩,
   ⟨"RDCYCLEH", 0xFFFFF07F, 0xC8001073⟩,
   ⟨"RDTIME", 0xFFFFF07F, 0xC0101073⟩,
   ⟨"RDTIMEH", 0xFFFFF07F, 0xC8101073⟩,
   ⟨"RDINSTRET", 0xFFFFF07F, 0xC0201073⟩,
   ⟨"RDINSTRETH", 0xFFFFF07F, 0xC8201073⟩,
   ⟨"WFI", 0xFFFFFFFF, 0x10100073⟩,
   ⟨"PFI", 0xFFFFFFFF, 0x10300073⟩]

/-! ## The host's question -/

/-- The instruction the decoder reads from a table word: its bytes as memory holds them, given to the decoder. -/
def decodeTableWord (nbits w : Nat) : Option Instr :=
  match decodeBytes (bytesOfWord 4 (BitVec.ofNat 32 (w % 2 ^ nbits))) with
  | .ok i => some i
  | .error _ => none

end Sys2Proof
end

