-- ==== Sys2Proof/Machine/State.lean ====
section
/-! DEFINITION. The state of CS01 (spec/10_state.md), the reasons a step stops, and reset (spec/70_reset_and_hazards.md). -/

namespace Sys2Proof.Machine

/-- The privilege mode (R29). The source also calls machine mode system mode (R289). -/
inductive Mode where
  | user
  | machine
  deriving DecidableEq, Repr

/-- The floating-point status register: five bits to which the source gives names and no positions (R33). -/
structure FFlags where
  /-- invalid operation -/
  nv : Bool := false
  /-- divide by zero -/
  dz : Bool := false
  /-- overflow -/
  of : Bool := false
  /-- underflow -/
  uf : Bool := false
  /-- inexact -/
  nx : Bool := false
  deriving DecidableEq, Repr

/-- The 31 writable registers of a register file, number 1 first; register 0 is hard-wired and not stored (R22, R28). -/
abbrev RegFile := Vector Word 31

/-- Memory: the bytes that hold a value, at strictly rising addresses. A byte that is not listed holds no value
(R45, D20: undefined until it is written or loaded from outside). Log 2. -/
abbrev Memory := List Host.Cell

/-- The complete architectural state (R20), and four fields of the model's own: `irqs`, `draws`,
`devices`, `stored`. -/
structure State where
  /-- current privilege mode (R29) -/
  mode : Mode
  /-- user-mode integer registers x1 to x31 (R21) -/
  xU : RegFile
  /-- machine-mode integer registers x1 to x31 (R21, R23) -/
  xM : RegFile
  /-- user-mode program counter (R25) -/
  pcU : Word
  /-- machine-mode program counter (R25) -/
  pcM : Word
  /-- floating-point registers f1 to f31, one file for both modes (R28) -/
  f : RegFile
  /-- interrupts enabled (R30) -/
  ie : Bool
  /-- previous interrupt mask setting (R30) -/
  pie : Bool
  /-- dynamic rounding mode register (R32) -/
  frm : BitVec 3
  /-- floating-point status register (R33) -/
  fflags : FFlags
  /-- tick count (R34) -/
  cycle : DWord
  /-- wall-clock time (R34) -/
  time : DWord
  /-- instructions retired (R34) -/
  instret : DWord
  /-- system argument registers, CSR 0x800 to 0x807 (R35) -/
  sarg : Vector Word 8
  /-- the core is paused in WFI (R38) -/
  waiting : Bool
  /-- byte-addressed memory (R39) -/
  mem : Memory
  /-- MODEL'S OWN: the levels of the input `irq` at this step and the steps to come; past the end the level is 0
  (R31: `irq` is supplied by the environment at every step). Log 3. -/
  irqs : List Bool
  /-- MODEL'S OWN: the index of the next free amount by which `cycle` and `time` advance (R272). Log 5. -/
  draws : Nat
  /-- MODEL'S OWN: the bus cycles that have reached device addresses since reset, the latest first; what the platform
  oracle's answers depend on (R69). Log 37. -/
  devices : List DeviceAccess
  /-- MODEL'S OWN: the addresses the hart has stored to since reset, recorded only under IFETCH_COHERENT = false, which
  refuses to fetch from them (R76). Log 19. -/
  stored : List Word
  deriving DecidableEq, Repr

/-- Why the machine stops with a fault. -/
inductive Fault where
  /-- Raised by a load or a fetch of a byte that holds no value: nothing has written it since reset and no image was
  loaded there (R45 and D20 allow a fault). Safe: the hardware goes on with some byte. -/
  | unwrittenByte (addr : Word)
  deriving DecidableEq, Repr

/-- Why a step has no meaning: the spec's `Unspecified` outcomes (R9), which the model refuses. Every one is safe. -/
inductive Refusal where
  /-- Raised by an arm of `exec` whose instruction has no meaning yet. Safe. -/
  | notModelled (mnemonic : String)
  /-- Raised by `step`: the fetched word is no instruction of the table (R115). Safe. -/
  | unlistedEncoding (word : Word) (why : DecodeError)
  /-- Raised by `step`: the program counter is not a multiple of 4 (R67). Safe. -/
  | misalignedFetch (pc : Word)
  /-- Raised by a taken branch whose target is not a multiple of 4 (R176). Safe. -/
  | misalignedBranchTarget (target : Word)
  /-- Raised by a floating-point instruction whose effective rounding mode is 101, 110 or 111 (R213). Safe. -/
  | reservedRoundingMode (code : BitVec 3)
  /-- Raised by ECALL, EBREAK and an interrupt-taking PFI in machine mode (R286). Safe. -/
  | trapInMachineMode
  /-- Raised by ERET in user mode (R286). Safe. -/
  | eretInUserMode
  /-- Raised by a store to an address of class rom (R69). Safe. -/
  | storeToRom (addr : Word)
  /-- Raised by any access to an address of class vacant (R69). Safe. -/
  | vacantAddress (addr : Word)
  /-- Raised by a fetch, under IFETCH_COHERENT = false only, of a byte the hart has stored to since reset (R76). Safe. -/
  | fetchOfStoredByte (addr : Word)
  deriving DecidableEq, Repr

/-- What a meaning answers. -/
abbrev Result := Host.Outcome State Fault Refusal

/-- The assignment `d` of R321: the values of everything that reset leaves undefined, and of the model's own fields. -/
structure Drawn where
  xU : RegFile
  xM : RegFile
  pcU : Word
  f : RegFile
  pie : Bool
  frm : BitVec 3
  fflags : FFlags
  cycle : DWord
  time : DWord
  instret : DWord
  sarg : Vector Word 8
  irqs : List Bool
  draws : Nat
  deriving DecidableEq, Repr

/-- The values the model names where the spec states none: zero (log 1, log 3, log 5). -/
def Drawn.zero : Drawn where
  xU := Vector.replicate 31 0
  xM := Vector.replicate 31 0
  pcU := 0
  f := Vector.replicate 31 0
  pie := false
  frm := 0
  fflags := {}
  cycle := 0
  time := 0
  instret := 0
  sarg := Vector.replicate 8 0
  irqs := []
  draws := 0

/-- `init(rom, d)` of R321: mode M, pcM the reset address, interrupts disabled, not waiting (R320); `mem` holds the
rom image and whatever other bytes have a value; nothing has been accessed or stored since reset; everything else is
drawn. -/
def State.init (mem : Memory) (d : Drawn) : State where
  mode := .machine
  xU := d.xU
  xM := d.xM
  pcU := d.pcU
  pcM := Config.resetPc
  f := d.f
  ie := false
  pie := d.pie
  frm := d.frm
  fflags := d.fflags
  cycle := d.cycle
  time := d.time
  instret := d.instret
  sarg := d.sarg
  waiting := false
  mem := mem
  irqs := d.irqs
  draws := d.draws
  devices := []
  stored := []

/-- The machine right after reset (R45, R320), with no memory byte listed and the named values elsewhere. -/
def State.reset : State := State.init [] Drawn.zero

end Sys2Proof.Machine
end

