-- ==== Sys2Proof/Machine/Platform.lean ====
section
/-! DEFINITION. The values that the parameters of spec/93_implementation_defined.md section 2 take in this model, other
than those of the encoding (Decode.lean) and RESET_PC (Config.lean). -/

namespace Sys2Proof.Machine

/-- BRANCH_MISALIGNED (R176, D5). Log 11. -/
def branchMisaligned : BranchMisaligned := .refuse

/-- FP_FLAG_MODEL (R215, D17). Log 22. -/
def fpFlagModel : FpFlagModel := .source

/-- FP_ARITH (R216, D15). Log 20. -/
def fpArith : FpArith := .ieee754

/-- ILLEGAL_BEHAVIOUR (R115, D6): what the step does whose fetched word matches no row of the table, given the word, the
decoder's reason and the state after the fetch. -/
abbrev IllegalBehaviour := Word → DecodeError → State → Result

/-- The default `refuse` of ILLEGAL_BEHAVIOUR. -/
def refuseUnlisted : IllegalBehaviour := fun w e _ => .refused (.unlistedEncoding w e)

/-- ILLEGAL_BEHAVIOUR (R115, D6). Log 12. -/
def illegalBehaviour : IllegalBehaviour := refuseUnlisted

/-- TRAP_RESUME (R280, D8): the user address at which execution resumes after an event at address `a`. An interrupt
between instructions resumes at the instruction not yet executed. Log 14. -/
def trapResume (cause : TrapCause) (a : Word) : Word :=
  match cause with
  | .envCall => a + 4
  | .breakpoint => a + 4
  | .interrupt .between => a
  | .interrupt .poll => a + 4
  | .interrupt .wait => a + 4

/-- The parameters of memory: MEMORY_MAP (R69), as rows and the class of the addresses that no row covers, and
IFETCH_COHERENT (R76). The operations over memory take them as an argument. -/
structure Platform where
  map : List MapRow
  elsewhere : Region
  ifetchCoherent : Bool
  deriving DecidableEq, Repr

/-- The class of an address under a list of rows: the first row that covers it. -/
def regionIn (a : Nat) (other : Region) : List MapRow → Region
  | [] => other
  | r :: rs => if r.base ≤ a ∧ a < r.base + r.size then r.kind else regionIn a other rs

/-- The class MEMORY_MAP gives an address (R69). -/
def Platform.region (p : Platform) (a : Word) : Region := regionIn a.toNat p.elsewhere p.map

/-- ROM_SIZE (R71): the spec leaves it open from 0x104 to 0x40000 bytes. Log 6. -/
def romSize : Nat := 0x1000

/-- MEMORY_MAP (R69, R71): the rom, the only region the source fixes. Log 6. -/
def memoryMap : List MapRow := [⟨Config.romBase, romSize, .rom⟩]

/-- The class of the addresses that no row of the map covers. Log 6. -/
def elsewhere : Region := .ram

/-- IFETCH_COHERENT (R76, D13). Log 19. -/
def ifetchCoherent : Bool := true

/-- The platform of this model. -/
def platform : Platform := ⟨memoryMap, elsewhere, ifetchCoherent⟩

/-- The class MEMORY_MAP gives an address in this model. -/
def regionOf (a : Word) : Region := platform.region a

end Sys2Proof.Machine
end

