-- ==== Sys2Proof/Machine/Ops.lean ====
section
/-! DEFINITION. The named operations over registers, memory, counters and modes that the meanings share: MemRead,
MemWrite and Fetch (spec/20_memory.md), trap entry and return (spec/60_exceptions.md R284, R285), the wait of WFI, the
end of a step. -/

namespace Sys2Proof.Machine

/-- Do one thing, then another with its value; a fault or a refusal stops at once. -/
def andThen {α β : Type} (o : Host.Outcome α Fault Refusal) (k : α → Host.Outcome β Fault Refusal) :
    Host.Outcome β Fault Refusal :=
  match o with
  | .next a => k a
  | .fault e => .fault e
  | .refused r => .refused r

/-! ## Registers -/

/-- Read register `i` of a file; register 0 reads as zero (R22, R28). -/
def RegFile.read (rf : RegFile) (i : BitVec 5) : Word := if i = 0 then 0 else rf[i.toNat - 1]

/-- Write register `i` of a file; a write to register 0 is discarded (R22, R28, D25). -/
def RegFile.write (rf : RegFile) (i : BitVec 5) (v : Word) : RegFile :=
  if i = 0 then rf else rf.set (i.toNat - 1) v

/-- The integer bank of the current mode (R21). -/
def State.bank (s : State) : RegFile :=
  match s.mode with
  | .user => s.xU
  | .machine => s.xM

/-- `x[i]` (R8): integer register `i` of the current mode's bank. -/
def State.x (s : State) (i : XReg) : Word := s.bank.read i

/-- `x[i] <- v` (R8). -/
def State.setX (s : State) (i : XReg) (v : Word) : State :=
  match s.mode with
  | .user => { s with xU := s.xU.write i v }
  | .machine => { s with xM := s.xM.write i v }

/-- `f[i]` (R8, R28). -/
def State.fp (s : State) (i : FReg) : Word := s.f.read i

/-- `f[i] <- v` (R8, R28). -/
def State.setFp (s : State) (i : FReg) (v : Word) : State := { s with f := s.f.write i v }

/-- `pc` (R25): the program counter of the current mode. -/
def State.pc (s : State) : Word :=
  match s.mode with
  | .user => s.pcU
  | .machine => s.pcM

/-- `pc <- a` (R8). -/
def State.setPc (s : State) (a : Word) : State :=
  match s.mode with
  | .user => { s with pcU := a }
  | .machine => { s with pcM := a }

/-- `pc <- pc + 4`, modulo 2^32 (R27). -/
def State.advance (s : State) : State := s.setPc (s.pc + 4)

/-- Set bits of the floating-point status register; a bit once set stays set (R33). -/
def FFlags.or (a b : FFlags) : FFlags where
  nv := a.nv || b.nv
  dz := a.dz || b.dz
  of := a.of || b.of
  uf := a.uf || b.uf
  nx := a.nx || b.nx

/-- `fflags |= flags` (R216). -/
def State.raiseFlags (s : State) (fl : FFlags) : State := { s with fflags := s.fflags.or fl }

/-- `x[rd] <- v; pc <- pc + 4`: how every integer computational instruction ends (R130). -/
def writeX (rd : XReg) (v : Word) (s : State) : Result := .next (s.setX rd v).advance

/-- `f[frd] <- v; pc <- pc + 4`. -/
def writeFp (frd : FReg) (v : Word) (s : State) : Result := .next (s.setFp frd v).advance

/-! ## Counters and control registers -/

/-- The CSR of a number (R36), as the machine holds it: the six counter words and the system argument registers. No
instruction but the counter reads reaches one (D22). -/
def State.csr (s : State) (n : BitVec 12) : Option Word :=
  if n = 0xC00 then some (s.cycle.extractLsb' 0 32)
  else if n = 0xC80 then some (s.cycle.extractLsb' 32 32)
  else if n = 0xC01 then some (s.time.extractLsb' 0 32)
  else if n = 0xC81 then some (s.time.extractLsb' 32 32)
  else if n = 0xC02 then some (s.instret.extractLsb' 0 32)
  else if n = 0xC82 then some (s.instret.extractLsb' 32 32)
  else if n.extractLsb' 3 9 = 0x100 then some (s.sarg[(n.extractLsb' 0 3).toNat])
  else none

/-! ## Memory -/

/-- The byte at an address, if it holds a value. -/
def Memory.read : Memory → Nat → Option Byte
  | [], _ => none
  | (k, v) :: m, a => if k = a then some v else Memory.read m a

/-- Give the byte at an address a value, keeping the addresses strictly rising. -/
def Memory.write : Memory → Nat → Byte → Memory
  | [], a, b => [(a, b)]
  | (k, v) :: m, a, b =>
    if a < k then (a, b) :: (k, v) :: m
    else if a = k then (a, b) :: m
    else (k, v) :: Memory.write m a b

/-- The canonical form: strictly rising addresses, each of the 2^32 (R39). -/
abbrev Memory.wf (m : Memory) : Prop :=
  List.Pairwise (fun c d => c.1 < d.1) m ∧ ∀ c ∈ m, c.1 < 2 ^ 32

/-- Give consecutive bytes from an address their values, addresses modulo 2^32 (R60, R64). -/
def Memory.writeBytes (m : Memory) (a : Word) : List Byte → Memory
  | [] => m
  | b :: bs => Memory.writeBytes (Memory.write m a.toNat b) (a + 1) bs

/-- Whether one of the `n` bytes from `a` is of class device (R69). -/
def Platform.reachesDevice (p : Platform) (a : Word) : Nat → Bool
  | 0 => false
  | n + 1 => p.region a == .device || p.reachesDevice (a + 1) n

/-- A bus cycle over the `n` bytes from `a` has been made: where one of them is a device's, the platform sees it (R69). -/
def State.seenBy (p : Platform) (acc : DeviceAccess) (a : Word) (n : Nat) (s : State) : State :=
  if p.reachesDevice a n then { s with devices := acc :: s.devices } else s

/-- How many of the `n` bytes from `a` the first bus cycle of the access carries (R68): all of them where `a` is a multiple
of `n`, else those below the next multiple of `n`; the rest go in a second cycle. Log 42. -/
def firstCycle (a : Word) (n : Nat) : Nat := n - a.toNat % n

/-- The state in which one bus cycle has read the `n` bytes from `a`. -/
def State.afterCycleOn (p : Platform) (s : State) (a : Word) (n : Nat) : State := s.seenBy p (.read a n) a n

/-- The state in which the `n` bytes from `a` have been read, by one bus cycle or by two (R68): a read of ram or rom has
no effect (R63, R70). -/
def State.afterReadOn (p : Platform) (s : State) (a : Word) (n : Nat) : State :=
  (s.afterCycleOn p a (firstCycle a n)).afterCycleOn p (a + BitVec.ofNat 32 (firstCycle a n)) (n - firstCycle a n)

/-- The byte a load or a fetch reads at an address (R69). -/
def readByteOn (p : Platform) (s : State) (a : Word) : Host.Outcome Byte Fault Refusal :=
  match p.region a with
  | .ram | .rom =>
    match s.mem.read a.toNat with
    | some b => .next b
    | none => .fault (.unwrittenByte a)
  | .device => .next (Config.deviceByte s.devices s.draws a)
  | .vacant => .refused (.vacantAddress a)

/-- The bytes at `a, a+1, ..., a+n-1`, addresses modulo 2^32 (R60). -/
def readBytesOn (p : Platform) (s : State) (a : Word) : Nat → Host.Outcome (List Byte) Fault Refusal
  | 0 => .next []
  | n + 1 => andThen (readByteOn p s a) fun b => andThen (readBytesOn p s (a + 1) n) fun bs => .next (b :: bs)

/-- The bytes that one bus cycle reads. A device answers knowing the cycle. -/
def readCycleOn (p : Platform) (s : State) (a : Word) (n : Nat) : Host.Outcome (List Byte) Fault Refusal :=
  readBytesOn p (s.afterCycleOn p a n) a n

/-- MemRead(a, n) (R63): the `n`-byte value at `a`, zero-extended to 32 bits, by one bus cycle or by two (R68). -/
def memReadOn (p : Platform) (s : State) (a : Word) (n : Nat) : Host.Outcome Word Fault Refusal :=
  andThen (readCycleOn p s a (firstCycle a n)) fun bs =>
    andThen (readCycleOn p (s.afterCycleOn p a (firstCycle a n)) (a + BitVec.ofNat 32 (firstCycle a n))
      (n - firstCycle a n)) fun cs => .next (wordOfBytes (bs ++ cs))

/-- The reason a store to one of the `n` bytes from `a` is refused, if there is one (R69). -/
def storeRefusalOn (p : Platform) (a : Word) : Nat → Option Refusal
  | 0 => none
  | n + 1 =>
    match p.region a with
    | .ram | .device => storeRefusalOn p (a + 1) n
    | .rom => some (.storeToRom a)
    | .vacant => some (.vacantAddress a)

/-- Store one byte that is not refused (R64, R69): a device's byte is no memory. Under IFETCH_COHERENT = false its address
is recorded as stored to, whatever its class (R76). -/
def storeByteOn (p : Platform) (a : Word) (b : Byte) (s : State) : State :=
  { s with
    mem := if p.region a = .device then s.mem else s.mem.write a.toNat b
    stored := if p.ifetchCoherent || s.stored.contains a then s.stored else a :: s.stored }

/-- Store consecutive bytes from an address, addresses modulo 2^32 (R60, R64). -/
def storeBytesOn (p : Platform) (a : Word) : List Byte → State → State
  | [], s => s
  | b :: bs, s => storeBytesOn p (a + 1) bs (storeByteOn p a b s)

/-- The state in which one bus cycle has written bytes from an address. -/
def writeCycleOn (p : Platform) (a : Word) (bs : List Byte) (s : State) : State :=
  storeBytesOn p a bs (s.seenBy p (.write a bs) a bs.length)

/-- The state in which bytes have been stored from an address, by one bus cycle or by two (R68). -/
def State.afterWriteOn (p : Platform) (s : State) (a : Word) (bs : List Byte) : State :=
  writeCycleOn p (a + BitVec.ofNat 32 (firstCycle a bs.length)) (bs.drop (firstCycle a bs.length))
    (writeCycleOn p a (bs.take (firstCycle a bs.length)) s)

/-- MemWrite(a, n, v) (R64): store the low `8n` bits of `v`, all bytes or none; its other bits reach nothing. -/
def memWriteOn (p : Platform) (s : State) (a : Word) (n : Nat) (v : Word) : Result :=
  match storeRefusalOn p a n with
  | some r => .refused r
  | none => .next (s.afterWriteOn p a (bytesOfWord n v))

/-- Whether a fetch may read at this address: a multiple of 4 (R67), or any address under
BRANCH_MISALIGNED = fetch_misaligned (D5). -/
def fetchAligned (a : Word) : Bool :=
  a.extractLsb' 0 2 == 0 || branchMisaligned == .fetchMisaligned

/-- The first of the `n` bytes from `a` that the hart has stored to, as far as that is recorded (R76). -/
def State.storedByte (s : State) (a : Word) : Nat → Option Word
  | 0 => none
  | n + 1 => if s.stored.contains a then some a else s.storedByte (a + 1) n

/-- Fetch(pc) (R67): the current memory's bytes; under IFETCH_COHERENT = false none that the hart has stored (R76). -/
def fetchOn (p : Platform) (s : State) : Host.Outcome Word Fault Refusal :=
  if fetchAligned s.pc then
    match (if p.ifetchCoherent then none else s.storedByte s.pc 4) with
    | none => memReadOn p s s.pc 4
    | some a => .refused (.fetchOfStoredByte a)
  else .refused (.misalignedFetch s.pc)

/-! ### The same on the platform of this model -/

/-- The state in which `n` bytes have been read. -/
def State.afterRead (s : State) (a : Word) (n : Nat) : State := s.afterReadOn platform a n

/-- The byte a load or a fetch reads at an address. -/
def readByte (s : State) (a : Word) : Host.Outcome Byte Fault Refusal := readByteOn platform s a

/-- MemRead(a, n). -/
def memRead (s : State) (a : Word) (n : Nat) : Host.Outcome Word Fault Refusal := memReadOn platform s a n

/-- MemWrite(a, n, v). -/
def memWrite (s : State) (a : Word) (n : Nat) (v : Word) : Result := memWriteOn platform s a n v

/-- Fetch(pc). -/
def fetch (s : State) : Host.Outcome Word Fault Refusal := fetchOn platform s

/-! ## Traps (R280 to R287) -/

/-- The level of the interrupt input at this step (R31). -/
def State.irq (s : State) : Bool := s.irqs.headD false

/-- TrapEnter(resume) (R284): `pcU <- resume; pie <- ie; ie <- 0; mode <- M`, nothing else. Machine mode goes on at pcM,
which the most recent ERET left at the address after it. -/
def trapEnter (resume : Word) (s : State) : State :=
  { s with pcU := resume, pie := s.ie, ie := false, mode := .machine }

/-- The trap entry of an event at the current instruction (R280). -/
def takeTrap (cause : TrapCause) (s : State) : State := trapEnter (trapResume cause s.pc) s

/-- Raise a synchronous event: trap entry from user mode; in machine mode there is no second context to save into
(R286, D10). -/
def raiseTrap (cause : TrapCause) (s : State) : Result :=
  match s.mode with
  | .user => .next (takeTrap cause s)
  | .machine => .refused .trapInMachineMode

/-- Trap return (R285): `pcM <- A + 4; ie <- pie; mode <- U`; `pie` keeps its value (D33). -/
def trapReturn (s : State) : State :=
  { s with pcM := s.pcM + 4, ie := s.pie, mode := .user }

/-- The test between instructions (R283): user mode, interrupts enabled, an interrupt present. Log 4. -/
def State.interruptReady (s : State) : Bool := s.mode == .user && s.ie && s.irq

/-- WFI at the current instruction, begun or already waiting (R264, D36): without an interrupt present the core is
paused; with one it goes on, taking the interrupt where user mode has interrupts enabled. -/
def waitForInterrupt (s : State) : State :=
  if s.irq then
    if s.mode == .user && s.ie then takeTrap (.interrupt .wait) { s with waiting := false }
    else State.advance { s with waiting := false }
  else { s with waiting := true }

/-! ## The end of a step -/

/-- An instruction has completed (R34, R272): `instret` rises by 1, `cycle` by at least 1. -/
def retire (s : State) : State :=
  { s with
    instret := s.instret + 1
    cycle := s.cycle + 1 + BitVec.ofNat 64 (Config.cycleExtra s.draws) }

/-- A step has passed: `time` advances (R272), the environment's next level of `irq` comes, the next draw is due. -/
def elapse (s : State) : State :=
  { s with
    time := s.time + BitVec.ofNat 64 (Config.timeAdvance s.draws)
    irqs := s.irqs.tail
    draws := s.draws + 1 }

/-- The end of a step in which an instruction executed: it retires unless it is a WFI that waits (R38, R264). -/
def finishInstr (s : State) : State := if s.waiting then elapse s else elapse (retire s)

end Sys2Proof.Machine
end

