-- ==== Sys2Proof/Machine/Operands.lean ====
section
/-! DEFINITION. The operand forms: immediates (spec/30_encoding.md R105 to R110), effective addresses (spec/20_memory.md
R61), jump and branch targets (spec/41_control_flow.md), shift amounts and the effective rounding mode
(spec/43_floating_point.md R212, R213). -/

namespace Sys2Proof.Machine

/-- immU (R105): imm[31:12] :: 0^12. -/
def immU (imm : BitVec 20) : Word := imm ++ 0#12

/-- immI and immS (R106, R107): sext_12. Log 8. -/
def immI (imm : BitVec 12) : Word := imm.signExtend 32

/-- immB (R108): sext_13 of the encoded bits and a zero. -/
def immB (off : BitVec 12) : Word := (off ++ 0#1).signExtend 32

/-- immJ (R109): sext_21 of the encoded bits and a zero. -/
def immJ (off : BitVec 20) : Word := (off ++ 0#1).signExtend 32

/-- The truth value 1 or 0 that a compare writes (R146, R233). -/
def boolWord (b : Bool) : Word := if b then 1 else 0

/-- Signed less-than (R156). -/
def signedLt (a b : Word) : Bool := decide (a.toInt < b.toInt)

/-- Unsigned less-than (R156). -/
def unsignedLt (a b : Word) : Bool := decide (a.toNat < b.toNat)

/-- The amount of a register shift: the low five bits (R145, D3). Log 9. -/
def shiftAmount (v : Word) : BitVec 5 := v.extractLsb' 0 5

/-- `a << n` (R7). -/
def shiftLeft (a : Word) (n : BitVec 5) : Word := a <<< n.toNat

/-- `a >>u n` (R7). -/
def shiftRightLogical (a : Word) (n : BitVec 5) : Word := a >>> n.toNat

/-- `a >>s n` (R7). -/
def shiftRightArith (a : Word) (n : BitVec 5) : Word := a.sshiftRight n.toNat

/-- The effective address of a load or store (R61, R190): base register plus sign-extended displacement. -/
def State.ea (s : State) (rs1 : XReg) (imm : BitVec 12) : Word := s.x rs1 + immI imm

/-- A jump target with its two low bits set to zero (R170, R172). -/
def clearLow2 (a : Word) : Word := a &&& 0xFFFFFFFC

/-- The address after the current instruction, the link value of JAL and JALR (R170). -/
def State.link (s : State) : Word := s.pc + 4

/-- JAL and its extended mnemonic (R170): the target is formed from the address of the instruction. -/
def jumpAndLink (rd : XReg) (off : BitVec 20) (s : State) : Result :=
  .next ((s.setX rd s.link).setPc (clearLow2 (s.pc + immJ off)))

/-- JALR and its extended mnemonic (R172): the target is formed from the old value of the base register (D31). -/
def jumpAndLinkReg (rd rs1 : XReg) (imm : BitVec 12) (s : State) : Result :=
  .next ((s.setX rd s.link).setPc (clearLow2 (s.x rs1 + immI imm)))

/-- `pc <- target` of a taken branch (R174), subject to R176: a target that is not a multiple of 4 is answered by
BRANCH_MISALIGNED. Log 11. -/
def branchTo (target : Word) (s : State) : Result :=
  if target.extractLsb' 0 2 = 0 then .next (s.setPc target)
  else
    match branchMisaligned with
    | .refuse => .refused (.misalignedBranchTarget target)
    | .clearLow2 => .next (s.setPc (clearLow2 target))
    | .fetchMisaligned => .next (s.setPc target)

/-- A conditional branch (R174). -/
def branchIf (taken : Bool) (off : BitVec 12) (s : State) : Result :=
  if taken then branchTo (s.pc + immB off) s else .next s.advance

/-- A load (R190): go on with `MemRead(ea, n)` in the state after the read. -/
def loadThen (rs1 : XReg) (imm : BitVec 12) (n : Nat) (s : State) (k : Word → State → Result) : Result :=
  andThen (memRead s (s.ea rs1 imm) n) fun v => k v (s.afterRead (s.ea rs1 imm) n)

/-- A load into an integer register (R190): `x[rd] <- extend(MemRead(ea, n)); pc <- pc + 4`. -/
def loadX (rd rs1 : XReg) (imm : BitVec 12) (n : Nat) (extend : Word → Word) (s : State) : Result :=
  loadThen rs1 imm n s fun v t => writeX rd (extend v) t

/-- A store (R190): `MemWrite(ea, n, v); pc <- pc + 4`. -/
def storeV (rs1 : XReg) (imm : BitVec 12) (n : Nat) (v : Word) (s : State) : Result :=
  andThen (memWrite s (s.ea rs1 imm) n v) fun t => .next t.advance

/-- sext_8 of the low byte of a MemRead (R7, R191). -/
def sext8 (v : Word) : Word := (v.extractLsb' 0 8).signExtend 32

/-- sext_16 of the low half of a MemRead (R7, R192). -/
def sext16 (v : Word) : Word := (v.extractLsb' 0 16).signExtend 32

/-- zext_8 (R7, R194). -/
def zext8 (v : Word) : Word := (v.extractLsb' 0 8).zeroExtend 32

/-- zext_16 (R7, R195). -/
def zext16 (v : Word) : Word := (v.extractLsb' 0 16).zeroExtend 32

/-- The rounding mode of a code (R212); 101, 110 and 111 have none. -/
def roundingOfCode (c : BitVec 3) : Option Rounding :=
  if c = 0 then some .rne
  else if c = 1 then some .rtz
  else if c = 2 then some .rdn
  else if c = 3 then some .rup
  else if c = 4 then some .rmm
  else none

/-- The effective rounding-mode code (R213): the instruction's own, or `frm` where that is 111. -/
def State.rmCode (s : State) (rm : BitVec 3) : BitVec 3 := if rm = 7 then s.frm else rm

/-- Go on with the effective rounding mode; a reserved one is refused (R213, D32). Log 31. -/
def withRounding (rm : BitVec 3) (s : State) (k : Rounding → Result) : Result :=
  match roundingOfCode (s.rmCode rm) with
  | some m => k m
  | none => .refused (.reservedRoundingMode (s.rmCode rm))

end Sys2Proof.Machine
end

