-- ==== Sys2Proof/Machine/Control.lean ====
section
/-! DEFINITION. Jumps, branches and fences (spec/41_control_flow.md). -/

namespace Sys2Proof.Machine

/-- JAL (R170). -/
def execJal (rd : XReg) (off : BitVec 20) (s : State) : Result := jumpAndLink rd off s

/-- CALL (R171): JAL with the return address register. -/
def execCall (off : BitVec 20) (s : State) : Result := jumpAndLink ra off s

/-- JALR (R172). -/
def execJalr (rd rs1 : XReg) (imm : BitVec 12) (s : State) : Result := jumpAndLinkReg rd rs1 imm s

/-- RET (R173): `pc <- x[1] & 0xFFFFFFFC`, no register written. -/
def execRet (s : State) : Result := .next (s.setPc (clearLow2 (s.x ra)))

/-- BEQ (R175). -/
def execBeq (rs1 rs2 : XReg) (off : BitVec 12) (s : State) : Result := branchIf (s.x rs1 == s.x rs2) off s

/-- BNE (R177). -/
def execBne (rs1 rs2 : XReg) (off : BitVec 12) (s : State) : Result := branchIf (s.x rs1 != s.x rs2) off s

/-- BLT (R180). -/
def execBlt (rs1 rs2 : XReg) (off : BitVec 12) (s : State) : Result :=
  branchIf (signedLt (s.x rs1) (s.x rs2)) off s

/-- BGE (R181). -/
def execBge (rs1 rs2 : XReg) (off : BitVec 12) (s : State) : Result :=
  branchIf (!signedLt (s.x rs1) (s.x rs2)) off s

/-- BLTU (R182). -/
def execBltu (rs1 rs2 : XReg) (off : BitVec 12) (s : State) : Result :=
  branchIf (unsignedLt (s.x rs1) (s.x rs2)) off s

/-- BGEU (R183). -/
def execBgeu (rs1 rs2 : XReg) (off : BitVec 12) (s : State) : Result :=
  branchIf (!unsignedLt (s.x rs1) (s.x rs2)) off s

/-- BRA (R184): always taken. -/
def execBra (off : BitVec 12) (s : State) : Result := branchTo (s.pc + immB off) s

/-- FENCE (R178): a no-operation whatever the two sets hold. -/
def execFence (_pred _succ : BitVec 4) (s : State) : Result := .next s.advance

/-- FENCE.I (R179): a no-operation. -/
def execFenceI (s : State) : Result := .next s.advance

end Sys2Proof.Machine
end

