-- ==== Sys2Proof/Machine/Ieee.lean ====
section
/-! DEFINITION. Single-precision values and correctly rounded arithmetic (spec/43_floating_point.md R210 to R216). A
finite value is a sign and a magnitude counted in units of 2^-149, so every exact result is a quotient of natural
numbers and one rounding function serves them all. -/

namespace Sys2Proof.Machine

/-! ## Format (R210, R211) -/

/-- The sign bit. -/
def fpSign (w : Word) : Bool := w.getLsbD 31

/-- The biased exponent. -/
def fpExp (w : Word) : BitVec 8 := w.extractLsb' 23 8

/-- The fraction. -/
def fpFrac (w : Word) : BitVec 23 := w.extractLsb' 0 23

/-- A Nan: exponent 255, fraction not zero. -/
def isNan (w : Word) : Bool := fpExp w == 255 && fpFrac w != 0

/-- A signalling Nan: bit 22 clear (R211). -/
def isSignalling (w : Word) : Bool := isNan w && !w.getLsbD 22

/-- An infinity: exponent 255, fraction zero. -/
def isInf (w : Word) : Bool := fpExp w == 255 && fpFrac w == 0

/-- A zero of either sign. -/
def isZero (w : Word) : Bool := fpExp w == 0 && fpFrac w == 0

/-- A de-normal number: exponent zero, fraction not zero. -/
def isDenormal (w : Word) : Bool := fpExp w == 0 && fpFrac w != 0

/-- Neither an infinity nor a Nan. -/
def isFinite (w : Word) : Bool := fpExp w != 255

/-- The magnitude of a finite number in units of 2^-149. An infinity's fields read in the same way give a number above
every finite one, which is what the compares need. -/
def magnitude (w : Word) : Nat :=
  if fpExp w = 0 then (fpFrac w).toNat else (2 ^ 23 + (fpFrac w).toNat) * 2 ^ ((fpExp w).toNat - 1)

/-- The value in units of 2^-149; both zeros give 0. -/
def fpInt (w : Word) : Int := if fpSign w then -(magnitude w : Int) else magnitude w

/-- A magnitude below 2^31, given its 31 low bits, with a sign. -/
def withSign (sign : Bool) (magBits : Nat) : Word :=
  BitVec.ofNat 32 ((if sign then 2 ^ 31 else 0) + magBits)

/-- A zero of a sign. -/
def signedZero (sign : Bool) : Word := withSign sign 0

/-- The 31 low bits of an infinity. -/
def infBits : Nat := 0x7F800000

/-- An infinity of a sign. -/
def signedInf (sign : Bool) : Word := withSign sign infBits

/-- The canonical Nan (R211). -/
def canonicalNan : Word := 0x7FC00000

/-- Any Nan: the sign and fraction of a word, exponent 255, the fraction made not zero. -/
def nanOf (w : Word) : Word :=
  (if w.getLsbD 31 then 1#1 else 0#1) ++ 255#8 ++ (if fpFrac w = 0 then 0x400000#23 else fpFrac w)

/-- FP_NAN_RESULT (R211, D16): the Nan an operation delivers, a free value constrained only to be a Nan. Log 21. -/
def nanResult (op : FpOp) (a b : Word) : Word := nanOf (Config.fpNanDraw op a b)

/-! ## Rounding (R212, R216) -/

/-- Whether the magnitude `n + r/q` (0 <= r < q) rounds up to `n + 1`. -/
def roundsUp (m : Rounding) (sign : Bool) (n r q : Nat) : Bool :=
  match m with
  | .rne => decide (q < 2 * r) || (decide (2 * r = q) && decide (n % 2 = 1))
  | .rtz => false
  | .rdn => sign && decide (r ≠ 0)
  | .rup => !sign && decide (r ≠ 0)
  | .rmm => decide (q ≤ 2 * r)

/-- The magnitude `p/q` rounded to a whole number. -/
def roundQuotient (m : Rounding) (sign : Bool) (p q : Nat) : Nat :=
  if roundsUp m sign (p / q) (p % q) q then p / q + 1 else p / q

/-- The greatest `k` with `2^k <= p/q`, for `p` and `q` not zero. -/
def log2Quotient (p q : Nat) : Int :=
  let k : Int := (Nat.log2 p : Int) - (Nat.log2 q : Int)
  if q * 2 ^ k.toNat ≤ p * 2 ^ (-k).toNat then k else k - 1

/-- The magnitude `p/q` divided by `2^u`, rounded to a whole number. -/
def roundScaled (m : Rounding) (sign : Bool) (p q : Nat) (u : Int) : Nat :=
  roundQuotient m sign (p * 2 ^ (-u).toNat) (q * 2 ^ u.toNat)

/-- Whether `p/q` is a whole multiple of `2^u`. -/
def exactScaled (p q : Nat) (u : Int) : Bool :=
  (p * 2 ^ (-u).toNat) % (q * 2 ^ u.toNat) == 0

/-- Whether overflow in this mode and sign delivers an infinity (R216). -/
def overflowsToInf (m : Rounding) (sign : Bool) : Bool :=
  match m with
  | .rne | .rmm => true
  | .rtz => false
  | .rdn => sign
  | .rup => !sign

/-- Round the non-zero magnitude `p/q` with a sign to single precision (R216): 24 significant bits, or a multiple of
2^-149 below the smallest normal number; above the largest finite number an infinity or that number. -/
def roundFp (m : Rounding) (sign : Bool) (p q : Nat) : Rounded :=
  let k := log2Quotient p q
  let u : Int := max (k - 23) (-149)
  let bits := (u + 149).toNat * 2 ^ 23 + roundScaled m sign p q u
  let tiny := decide (k < -126) && decide (roundScaled m sign p q (k - 23) * 2 ^ (k + 126).toNat <
    2 ^ 23 * 2 ^ (-(k + 126)).toNat)
  if bits < infBits then { bits := withSign sign bits, inexact := !exactScaled p q u, tiny := tiny }
  else if overflowsToInf m sign then { bits := signedInf sign, inexact := true, overflow := true }
  else { bits := withSign sign (infBits - 1), inexact := true, overflow := true }

/-! ## Operations on values (R216, R226, R236 to R239) -/

/-- The sign of an exact zero sum (R216): that of the operands where they agree, else minus only under RDN. -/
def zeroSumSign (m : Rounding) (a b : Bool) : Bool := if a == b then a else m == .rdn

/-- The sum of two finite numbers given by signs and values in units of 2^-149. -/
def addFinite (m : Rounding) (sa sb : Bool) (x y : Int) : Rounded :=
  if x + y = 0 then { bits := signedZero (zeroSumSign m sa sb) }
  else roundFp m (decide (x + y < 0)) (x + y).natAbs (2 ^ 149)

/-- FP_ARITH (D15): the IEEE 754 result, or, under `abstract`, a free one that is a Nan where an operand is. Log 20. -/
def arith (op : FpOp) (m : Rounding) (a b : Word) (ieee : Rounded) : Rounded :=
  match fpArith with
  | .ieee754 => ieee
  | .abstract => if isNan a || isNan b then { bits := nanResult op a b } else Config.fpAbstract op m a b

/-- `a + b`, or `a - b` as the sum with the sign of `b` flipped (R216, R220, R221). -/
def ieeeAddSub (op : FpOp) (m : Rounding) (a b : Word) (sb : Bool) : Rounded :=
  if isNan a || isNan b then { bits := nanResult op a b }
  else if isInf a then
    if isInf b && (fpSign a != sb) then { bits := nanResult op a b } else { bits := signedInf (fpSign a) }
  else if isInf b then { bits := signedInf sb }
  else addFinite m (fpSign a) sb (fpInt a) (if sb then -(magnitude b : Int) else magnitude b)

/-- FADD's result (R220). -/
def fpAdd (m : Rounding) (a b : Word) : Rounded :=
  arith .add m a b (ieeeAddSub .add m a b (fpSign b))

/-- FSUB's result (R221): the first operand minus the second. -/
def fpSub (m : Rounding) (a b : Word) : Rounded :=
  arith .sub m a b (ieeeAddSub .sub m a b (!fpSign b))

/-- The IEEE 754 product (R216, R222). -/
def ieeeMul (m : Rounding) (a b : Word) : Rounded :=
  let sign := fpSign a != fpSign b
  if isNan a || isNan b then { bits := nanResult .mul a b }
  else if (isInf a && isZero b) || (isZero a && isInf b) then { bits := nanResult .mul a b }
  else if isInf a || isInf b then { bits := signedInf sign }
  else if isZero a || isZero b then { bits := signedZero sign }
  else roundFp m sign (magnitude a * magnitude b) (2 ^ 298)

/-- FMUL's result (R216, R222). -/
def fpMul (m : Rounding) (a b : Word) : Rounded := arith .mul m a b (ieeeMul m a b)

/-- The IEEE 754 quotient (R216, R223): the first operand over the second. -/
def ieeeDiv (m : Rounding) (a b : Word) : Rounded :=
  let sign := fpSign a != fpSign b
  if isNan a || isNan b then { bits := nanResult .div a b }
  else if (isInf a && isInf b) || (isZero a && isZero b) then { bits := nanResult .div a b }
  else if isInf a || isZero b then { bits := signedInf sign }
  else if isZero a || isInf b then { bits := signedZero sign }
  else roundFp m sign (magnitude a) (magnitude b)

/-- FDIV's result (R216, R223). -/
def fpDiv (m : Rounding) (a b : Word) : Rounded := arith .div m a b (ieeeDiv m a b)

/-- The whole part of a square root, bit by bit: the greatest `r` made of `acc` and the `k` low bits with
`r * r <= n`. -/
def isqrtBits (n : Nat) : Nat → Nat → Nat
  | 0, acc => acc
  | k + 1, acc => isqrtBits n k (if (acc + 2 ^ k) * (acc + 2 ^ k) ≤ n then acc + 2 ^ k else acc)

/-- The whole part of the square root of a number below 2^340. -/
def isqrt (n : Nat) : Nat := isqrtBits n 170 0

/-- The square root of a positive finite number of magnitude `a` in units of 2^-149. With `n = a * 2^61` the root is
`sqrt n * 2^-105`; where `sqrt n` lies strictly between `r` and `r + 1`, the number `r + 1/2` rounds as it does,
since `r` has more than 30 bits and single precision keeps 24 of them. -/
def sqrtFinite (m : Rounding) (a : Nat) : Rounded :=
  let n := a * 2 ^ 61
  let r := isqrt n
  roundFp m false (2 * r + (if r * r = n then 0 else 1)) (2 ^ 106)

/-- The IEEE 754 square root (R226). -/
def ieeeSqrt (m : Rounding) (a : Word) : Rounded :=
  if isNan a then { bits := nanResult .sqrt a 0 }
  else if isZero a then { bits := a }
  else if fpSign a then { bits := nanResult .sqrt a 0 }
  else if isInf a then { bits := a }
  else sqrtFinite m (magnitude a)

/-- FSQRT's result (R226). -/
def fpSqrt (m : Rounding) (a : Word) : Rounded := arith .sqrt m a 0 (ieeeSqrt m a)

/-- Less-than by value for operands that are no Nans; the two zeros are equal (R234). -/
def fpLt (a b : Word) : Bool := !isNan a && !isNan b && decide (fpInt a < fpInt b)

/-- Equality by value (R233). -/
def fpEq (a b : Word) : Bool := !isNan a && !isNan b && decide (fpInt a = fpInt b)

/-- Less-than or equal by value (R235). -/
def fpLe (a b : Word) : Bool := !isNan a && !isNan b && decide (fpInt a ≤ fpInt b)

/-- Less-than with -0 below +0, for operands that are no Nans (R224, R225). -/
def fpBelow (a b : Word) : Bool :=
  decide (fpInt a < fpInt b) || (decide (fpInt a = fpInt b) && fpSign a && !fpSign b)

/-- FMIN's result (R224). -/
def fpMin (a b : Word) : Word :=
  if isNan a && isNan b then canonicalNan
  else if isNan a then b
  else if isNan b then a
  else if fpBelow b a then b else a

/-- FMAX's result (R225). -/
def fpMax (a b : Word) : Word :=
  if isNan a && isNan b then canonicalNan
  else if isNan a then b
  else if isNan b then a
  else if fpBelow a b then b else a

/-- FCLASS's bit number (R241). -/
def fpClass (a : Word) : Nat :=
  if isNan a then (if isSignalling a then 8 else 9)
  else if isInf a then (if fpSign a then 0 else 7)
  else if isZero a then (if fpSign a then 3 else 4)
  else if isDenormal a then (if fpSign a then 2 else 5)
  else if fpSign a then 1 else 6

/-- The two kinds of target integer of a conversion (R236, R237). -/
structure IntRange where
  low : Int
  high : Int
  deriving DecidableEq, Repr

/-- FCVT.W.S converts to -2^31 .. 2^31-1. -/
def signedRange : IntRange := ⟨-2 ^ 31, 2 ^ 31 - 1⟩

/-- FCVT.WU.S converts to 0 .. 2^32-1. -/
def unsignedRange : IntRange := ⟨0, 2 ^ 32 - 1⟩

/-- A conversion's result and the two flags it can set (R236). -/
structure Converted where
  value : Word
  nv : Bool := false
  nx : Bool := false
  deriving DecidableEq, Repr

/-- The value of a finite number rounded to an integer. -/
def roundToInt (m : Rounding) (a : Word) : Int :=
  let n := roundQuotient m (fpSign a) (magnitude a) (2 ^ 149)
  if fpSign a then -(n : Int) else n

/-- Float to integer (R236, R237): a Nan and +inf give the greatest number, -inf the least, a value that rounds out of
range the nearer end, each with nv; otherwise the rounded value, with nx where the rounding changed it. -/
def fpToInt (range : IntRange) (m : Rounding) (a : Word) : Converted :=
  if isNan a then { value := BitVec.ofInt 32 range.high, nv := true }
  else if isInf a then { value := BitVec.ofInt 32 (if fpSign a then range.low else range.high), nv := true }
  else if range.high < roundToInt m a then { value := BitVec.ofInt 32 range.high, nv := true }
  else if roundToInt m a < range.low then { value := BitVec.ofInt 32 range.low, nv := true }
  else { value := BitVec.ofInt 32 (roundToInt m a), nx := magnitude a % 2 ^ 149 != 0 }

/-- Integer to float (R238, R239): zero gives +0. -/
def intToFp (m : Rounding) (x : Int) : Rounded :=
  if x = 0 then { bits := signedZero false } else roundFp m (decide (x < 0)) x.natAbs 1

/-- The sign-injection instructions (R227 to R229): the sign, then the 31 low bits of the first operand. -/
def injectSign (sign : Bool) (a : Word) : Word := (if sign then 1#1 else 0#1) ++ a.extractLsb' 0 31

end Sys2Proof.Machine
end

