-- ==== Sys2Proof/Machine/Flags.lean ====
section
/-! DEFINITION. The floating-point flags (spec/43_floating_point.md R214, R215), the only flags of the machine
(spec/10_state.md R33), under both values of FP_FLAG_MODEL. Log 22. -/

namespace Sys2Proof.Machine

/-- Model `source`: uf where the delivered result is a de-normal number, of where it is an infinity although the
operands are finite and nothing was divided by zero, nx where it differs from the exact result (R215). -/
def sourceFlags (r : Rounded) (finiteOperands divByZero : Bool) : FFlags where
  uf := isDenormal r.bits
  of := isInf r.bits && finiteOperands && !divByZero
  nx := r.inexact

/-- Model `ieee`: underflow is tiny and inexact, overflow is judged before the result is chosen (R215). -/
def ieeeFlags (r : Rounded) : FFlags where
  uf := r.tiny && r.inexact
  of := r.overflow
  nx := r.inexact

/-- FADD, FSUB: "uf, of, nx" (R220, R221); model `ieee` adds nv for a signalling Nan and for infinities that cancel;
`sb` is the sign the second operand takes part with. -/
def addFlags (r : Rounded) (a b : Word) (sb : Bool) : FFlags :=
  match fpFlagModel with
  | .source => sourceFlags r (isFinite a && isFinite b) false
  | .ieee => { ieeeFlags r with
      nv := isSignalling a || isSignalling b || (isInf a && isInf b && (fpSign a != sb)) }

/-- FMUL: "uf, of, nx" (R222); model `ieee` adds nv for a signalling Nan and 0 x inf. -/
def mulFlags (r : Rounded) (a b : Word) : FFlags :=
  match fpFlagModel with
  | .source => sourceFlags r (isFinite a && isFinite b) false
  | .ieee => { ieeeFlags r with
      nv := isSignalling a || isSignalling b || (isInf a && isZero b) || (isZero a && isInf b) }

/-- FDIV: "uf, of, nx, dz" (R223). Model `source` sets dz for a zero divisor unless the dividend is a Nan; model `ieee`
only for a finite non-zero dividend, with nv for a signalling Nan, 0 / 0 and inf / inf. -/
def divFlags (r : Rounded) (a b : Word) : FFlags :=
  match fpFlagModel with
  | .source => { sourceFlags r (isFinite a && isFinite b) (isZero b) with dz := isZero b && !isNan a }
  | .ieee => { ieeeFlags r with
      dz := isZero b && isFinite a && !isZero a
      nv := isSignalling a || isSignalling b || (isInf a && isInf b) || (isZero a && isZero b) }

/-- FSQRT: nx, dz, nv (R215, R226). Model `source` sets dz for a zero operand and nv for one less than zero; model
`ieee` sets nv for that and for a signalling Nan, and never dz. -/
def sqrtFlags (r : Rounded) (a : Word) : FFlags :=
  match fpFlagModel with
  | .source => { nx := r.inexact, dz := isZero a, nv := fpSign a && !isZero a && !isNan a }
  | .ieee => { nx := r.inexact, nv := (fpSign a && !isZero a && !isNan a) || isSignalling a }

/-- FMIN, FMAX (R225) and FEQ (R233): none; model `ieee` sets nv for a signalling Nan. -/
def quietFlags (a b : Word) : FFlags :=
  match fpFlagModel with
  | .source => {}
  | .ieee => { nv := isSignalling a || isSignalling b }

/-- FLT, FLE (R234, R235): none; model `ieee` sets nv for any Nan (R215, ordered comparison). -/
def orderedFlags (a b : Word) : FFlags :=
  match fpFlagModel with
  | .source => {}
  | .ieee => { nv := isNan a || isNan b }

/-- FCVT.W.S, FCVT.WU.S: nv or nx (R236, R237). -/
def convertFlags (c : Converted) : FFlags := { nv := c.nv, nx := c.nx }

/-- FCVT.S.W, FCVT.S.WU: nx (R238, R239). -/
def intToFpFlags (r : Rounded) : FFlags := { nx := r.inexact }

end Sys2Proof.Machine
end

