-- ==== Sys2Proof/Machine/FloatingPoint.lean ====
section
/-! DEFINITION. The floating-point instructions (spec/43_floating_point.md R216 to R242). -/

namespace Sys2Proof.Machine

/-- How an arithmetic instruction ends (R216): `f[frd] <- result; fflags |= flags; pc <- pc + 4`. -/
def deliverFp (frd : FReg) (r : Rounded) (fl : FFlags) (s : State) : Result :=
  writeFp frd r.bits (s.raiseFlags fl)

/-- How a compare or a conversion to integer ends: `x[rd] <- result; fflags |= flags; pc <- pc + 4`. -/
def deliverX (rd : XReg) (v : Word) (fl : FFlags) (s : State) : Result := writeX rd v (s.raiseFlags fl)

/-- FADD (R220). -/
def execFadd (frd frs1 frs2 : FReg) (rm : BitVec 3) (s : State) : Result :=
  withRounding rm s fun m =>
    deliverFp frd (fpAdd m (s.fp frs1) (s.fp frs2))
      (addFlags (fpAdd m (s.fp frs1) (s.fp frs2)) (s.fp frs1) (s.fp frs2) (fpSign (s.fp frs2))) s

/-- FSUB (R221). -/
def execFsub (frd frs1 frs2 : FReg) (rm : BitVec 3) (s : State) : Result :=
  withRounding rm s fun m =>
    deliverFp frd (fpSub m (s.fp frs1) (s.fp frs2))
      (addFlags (fpSub m (s.fp frs1) (s.fp frs2)) (s.fp frs1) (s.fp frs2) (!fpSign (s.fp frs2))) s

/-- FMUL (R222). -/
def execFmul (frd frs1 frs2 : FReg) (rm : BitVec 3) (s : State) : Result :=
  withRounding rm s fun m =>
    deliverFp frd (fpMul m (s.fp frs1) (s.fp frs2))
      (mulFlags (fpMul m (s.fp frs1) (s.fp frs2)) (s.fp frs1) (s.fp frs2)) s

/-- FDIV (R223). -/
def execFdiv (frd frs1 frs2 : FReg) (rm : BitVec 3) (s : State) : Result :=
  withRounding rm s fun m =>
    deliverFp frd (fpDiv m (s.fp frs1) (s.fp frs2))
      (divFlags (fpDiv m (s.fp frs1) (s.fp frs2)) (s.fp frs1) (s.fp frs2)) s

/-- FMIN (R224). -/
def execFmin (frd frs1 frs2 : FReg) (s : State) : Result :=
  writeFp frd (fpMin (s.fp frs1) (s.fp frs2)) (s.raiseFlags (quietFlags (s.fp frs1) (s.fp frs2)))

/-- FMAX (R225). -/
def execFmax (frd frs1 frs2 : FReg) (s : State) : Result :=
  writeFp frd (fpMax (s.fp frs1) (s.fp frs2)) (s.raiseFlags (quietFlags (s.fp frs1) (s.fp frs2)))

/-- FSQRT (R226). -/
def execFsqrt (frd frs1 : FReg) (rm : BitVec 3) (s : State) : Result :=
  withRounding rm s fun m =>
    deliverFp frd (fpSqrt m (s.fp frs1)) (sqrtFlags (fpSqrt m (s.fp frs1)) (s.fp frs1)) s

/-- FSGNJ (R227): the sign of the second operand. -/
def execFsgnj (frd frs1 frs2 : FReg) (s : State) : Result :=
  writeFp frd (injectSign (fpSign (s.fp frs2)) (s.fp frs1)) s

/-- FMOV (R230): all 32 bits copied. -/
def execFmov (frd frs1 : FReg) (s : State) : Result := writeFp frd (s.fp frs1) s

/-- FSGNJN (R228): the complement of the sign of the second operand. -/
def execFsgnjn (frd frs1 frs2 : FReg) (s : State) : Result :=
  writeFp frd (injectSign (!fpSign (s.fp frs2)) (s.fp frs1)) s

/-- FNEG (R231): the sign complemented. -/
def execFneg (frd frs1 : FReg) (s : State) : Result :=
  writeFp frd (injectSign (!fpSign (s.fp frs1)) (s.fp frs1)) s

/-- FSGNJX (R229): the exclusive-or of the signs. -/
def execFsgnjx (frd frs1 frs2 : FReg) (s : State) : Result :=
  writeFp frd (injectSign (fpSign (s.fp frs1) ^^ fpSign (s.fp frs2)) (s.fp frs1)) s

/-- FABS (R232): the sign cleared. -/
def execFabs (frd frs1 : FReg) (s : State) : Result := writeFp frd (injectSign false (s.fp frs1)) s

/-- FEQ (R233). -/
def execFeq (rd : XReg) (frs1 frs2 : FReg) (s : State) : Result :=
  deliverX rd (boolWord (fpEq (s.fp frs1) (s.fp frs2))) (quietFlags (s.fp frs1) (s.fp frs2)) s

/-- FLT (R234). -/
def execFlt (rd : XReg) (frs1 frs2 : FReg) (s : State) : Result :=
  deliverX rd (boolWord (fpLt (s.fp frs1) (s.fp frs2))) (orderedFlags (s.fp frs1) (s.fp frs2)) s

/-- FLE (R235). -/
def execFle (rd : XReg) (frs1 frs2 : FReg) (s : State) : Result :=
  deliverX rd (boolWord (fpLe (s.fp frs1) (s.fp frs2))) (orderedFlags (s.fp frs1) (s.fp frs2)) s

/-- FCVT.W.S (R236). -/
def execFcvtWS (rd : XReg) (frs1 : FReg) (rm : BitVec 3) (s : State) : Result :=
  withRounding rm s fun m =>
    deliverX rd (fpToInt signedRange m (s.fp frs1)).value (convertFlags (fpToInt signedRange m (s.fp frs1))) s

/-- FCVT.WU.S (R237). -/
def execFcvtWuS (rd : XReg) (frs1 : FReg) (rm : BitVec 3) (s : State) : Result :=
  withRounding rm s fun m =>
    deliverX rd (fpToInt unsignedRange m (s.fp frs1)).value (convertFlags (fpToInt unsignedRange m (s.fp frs1))) s

/-- FCVT.S.W (R238). -/
def execFcvtSW (frd : FReg) (rs1 : XReg) (rm : BitVec 3) (s : State) : Result :=
  withRounding rm s fun m =>
    deliverFp frd (intToFp m (s.x rs1).toInt) (intToFpFlags (intToFp m (s.x rs1).toInt)) s

/-- FCVT.S.WU (R239). -/
def execFcvtSWu (frd : FReg) (rs1 : XReg) (rm : BitVec 3) (s : State) : Result :=
  withRounding rm s fun m =>
    deliverFp frd (intToFp m (s.x rs1).toNat) (intToFpFlags (intToFp m (s.x rs1).toNat)) s

/-- FMV.X.S (R240): all 32 bits unchanged. -/
def execFmvXS (rd : XReg) (frs1 : FReg) (s : State) : Result := writeX rd (s.fp frs1) s

/-- FCLASS (R241): exactly one of bits 0 to 9. -/
def execFclass (rd : XReg) (frs1 : FReg) (s : State) : Result :=
  writeX rd (BitVec.ofNat 32 (2 ^ fpClass (s.fp frs1))) s

/-- FMV.S.X (R242): all 32 bits unchanged. -/
def execFmvSX (frd : FReg) (rs1 : XReg) (s : State) : Result := writeFp frd (s.x rs1) s

end Sys2Proof.Machine
end

