-- ==== Sys2Proof/Machine/Integer.lean ====
section
/-! DEFINITION. The integer instructions (spec/40_integer.md): registers of the current bank in, one register out,
`pc + 4` (R130). -/

namespace Sys2Proof.Machine

/-- LUI (R131). -/
def execLui (rd : XReg) (imm : BitVec 20) (s : State) : Result := writeX rd (immU imm) s

/-- AUIPC (R132): all 32 bits of the instruction's own address take part (D4). Log 10. -/
def execAuipc (rd : XReg) (imm : BitVec 20) (s : State) : Result := writeX rd (s.pc + immU imm) s

/-- ADDI (R133). -/
def execAddi (rd rs1 : XReg) (imm : BitVec 12) (s : State) : Result := writeX rd (s.x rs1 + immI imm) s

/-- NOP (R153): nothing but `pc + 4`. -/
def execNop (s : State) : Result := .next s.advance

/-- SLTI (R134). -/
def execSlti (rd rs1 : XReg) (imm : BitVec 12) (s : State) : Result :=
  writeX rd (boolWord (signedLt (s.x rs1) (immI imm))) s

/-- SLTUI (R135): the immediate is sign-extended, then compared unsigned. -/
def execSltui (rd rs1 : XReg) (imm : BitVec 12) (s : State) : Result :=
  writeX rd (boolWord (unsignedLt (s.x rs1) (immI imm))) s

/-- XORI (R136). -/
def execXori (rd rs1 : XReg) (imm : BitVec 12) (s : State) : Result := writeX rd (s.x rs1 ^^^ immI imm) s

/-- ORI (R137). -/
def execOri (rd rs1 : XReg) (imm : BitVec 12) (s : State) : Result := writeX rd (s.x rs1 ||| immI imm) s

/-- LDI (R154): the sign-extended constant. -/
def execLdi (rd : XReg) (imm : BitVec 12) (s : State) : Result := writeX rd (immI imm) s

/-- ANDI (R138). -/
def execAndi (rd rs1 : XReg) (imm : BitVec 12) (s : State) : Result := writeX rd (s.x rs1 &&& immI imm) s

/-- SLLI (R139). -/
def execSlli (rd rs1 : XReg) (shamt : BitVec 5) (s : State) : Result := writeX rd (shiftLeft (s.x rs1) shamt) s

/-- SRLI (R140). -/
def execSrli (rd rs1 : XReg) (shamt : BitVec 5) (s : State) : Result :=
  writeX rd (shiftRightLogical (s.x rs1) shamt) s

/-- SRAI (R141). -/
def execSrai (rd rs1 : XReg) (shamt : BitVec 5) (s : State) : Result :=
  writeX rd (shiftRightArith (s.x rs1) shamt) s

/-- ADD (R142). -/
def execAdd (rd rs1 rs2 : XReg) (s : State) : Result := writeX rd (s.x rs1 + s.x rs2) s

/-- SUB (R143): first operand minus second. -/
def execSub (rd rs1 rs2 : XReg) (s : State) : Result := writeX rd (s.x rs1 - s.x rs2) s

/-- MUL (R144): the low 32 bits of the product. -/
def execMul (rd rs1 rs2 : XReg) (s : State) : Result := writeX rd (s.x rs1 * s.x rs2) s

/-- SLL (R145). -/
def execSll (rd rs1 rs2 : XReg) (s : State) : Result :=
  writeX rd (shiftLeft (s.x rs1) (shiftAmount (s.x rs2))) s

/-- SLT (R146). -/
def execSlt (rd rs1 rs2 : XReg) (s : State) : Result := writeX rd (boolWord (signedLt (s.x rs1) (s.x rs2))) s

/-- SLTU (R147). -/
def execSltu (rd rs1 rs2 : XReg) (s : State) : Result := writeX rd (boolWord (unsignedLt (s.x rs1) (s.x rs2))) s

/-- XOR (R148). -/
def execXor (rd rs1 rs2 : XReg) (s : State) : Result := writeX rd (s.x rs1 ^^^ s.x rs2) s

/-- SRL (R149). -/
def execSrl (rd rs1 rs2 : XReg) (s : State) : Result :=
  writeX rd (shiftRightLogical (s.x rs1) (shiftAmount (s.x rs2))) s

/-- SRA (R150). -/
def execSra (rd rs1 rs2 : XReg) (s : State) : Result :=
  writeX rd (shiftRightArith (s.x rs1) (shiftAmount (s.x rs2))) s

/-- OR (R151). -/
def execOr (rd rs1 rs2 : XReg) (s : State) : Result := writeX rd (s.x rs1 ||| s.x rs2) s

/-- MOV (R155). -/
def execMov (rd rs1 : XReg) (s : State) : Result := writeX rd (s.x rs1) s

/-- AND (R152). -/
def execAnd (rd rs1 rs2 : XReg) (s : State) : Result := writeX rd (s.x rs1 &&& s.x rs2) s

end Sys2Proof.Machine
end

