-- ==== Sys2Proof/Machine/LoadStore.lean ====
section
/-! DEFINITION. Loads and stores (spec/42_memory_instructions.md R190 to R200). -/

namespace Sys2Proof.Machine

/-- LB (R191). -/
def execLb (rd rs1 : XReg) (imm : BitVec 12) (s : State) : Result := loadX rd rs1 imm 1 sext8 s

/-- LH (R192). -/
def execLh (rd rs1 : XReg) (imm : BitVec 12) (s : State) : Result := loadX rd rs1 imm 2 sext16 s

/-- LW (R193). -/
def execLw (rd rs1 : XReg) (imm : BitVec 12) (s : State) : Result := loadX rd rs1 imm 4 (fun v => v) s

/-- LBU (R194). -/
def execLbu (rd rs1 : XReg) (imm : BitVec 12) (s : State) : Result := loadX rd rs1 imm 1 zext8 s

/-- LHU (R195). -/
def execLhu (rd rs1 : XReg) (imm : BitVec 12) (s : State) : Result := loadX rd rs1 imm 2 zext16 s

/-- FLW (R196): the 32 bits unchanged (D35). -/
def execFlw (frd : FReg) (rs1 : XReg) (imm : BitVec 12) (s : State) : Result :=
  loadThen rs1 imm 4 s fun v t => writeFp frd v t

/-- SB (R197). -/
def execSb (rs2 rs1 : XReg) (imm : BitVec 12) (s : State) : Result := storeV rs1 imm 1 (s.x rs2) s

/-- SH (R198). -/
def execSh (rs2 rs1 : XReg) (imm : BitVec 12) (s : State) : Result := storeV rs1 imm 2 (s.x rs2) s

/-- SW (R199). -/
def execSw (rs2 rs1 : XReg) (imm : BitVec 12) (s : State) : Result := storeV rs1 imm 4 (s.x rs2) s

/-- FSW (R200). -/
def execFsw (frs2 : FReg) (rs1 : XReg) (imm : BitVec 12) (s : State) : Result := storeV rs1 imm 4 (s.fp frs2) s

end Sys2Proof.Machine
end

