-- ==== Sys2Proof/Machine/System.lean ====
section
/-! DEFINITION. The machine mode instructions and the counter reads (spec/44_machine_mode.md). -/

namespace Sys2Proof.Machine

/-- ECALL (R260): trap entry, resuming after it; refused in machine mode (R286). -/
def execEcall (s : State) : Result := raiseTrap .envCall s

/-- EBREAK (R261): as ECALL; no state tells the two apart (R281). -/
def execEbreak (s : State) : Result := raiseTrap .breakpoint s

/-- ERET (R262): trap return; refused in user mode (R286). -/
def execEret (s : State) : Result :=
  match s.mode with
  | .machine => .next (trapReturn s)
  | .user => .refused .eretInUserMode

/-- RDCYCLE (R265). -/
def execRdcycle (rd : XReg) (s : State) : Result := writeX rd (s.cycle.extractLsb' 0 32) s

/-- RDCYCLEH (R266). -/
def execRdcycleh (rd : XReg) (s : State) : Result := writeX rd (s.cycle.extractLsb' 32 32) s

/-- RDTIME (R267). -/
def execRdtime (rd : XReg) (s : State) : Result := writeX rd (s.time.extractLsb' 0 32) s

/-- RDTIMEH (R268). -/
def execRdtimeh (rd : XReg) (s : State) : Result := writeX rd (s.time.extractLsb' 32 32) s

/-- RDINSTRET (R269): the count before this instruction. -/
def execRdinstret (rd : XReg) (s : State) : Result := writeX rd (s.instret.extractLsb' 0 32) s

/-- RDINSTRETH (R270). -/
def execRdinstreth (rd : XReg) (s : State) : Result := writeX rd (s.instret.extractLsb' 32 32) s

/-- WFI (R264). -/
def execWfi (s : State) : Result := .next (waitForInterrupt s)

/-- PFI (R263): `ie` is not consulted; refused in machine mode with an interrupt present (R286). -/
def execPfi (s : State) : Result := if s.irq then raiseTrap (.interrupt .poll) s else .next s.advance

end Sys2Proof.Machine
end

