-- ==== Sys2Proof/Machine/Dispatch.lean ====
section
/-! DEFINITION. One arm per instruction, each one call of its meaning. -/

namespace Sys2Proof.Machine

def exec (i : Instr) (s : State) : Host.Outcome State Fault Refusal :=
  match i with
  | .lui rd imm => Sys2Proof.Machine.execLui rd imm s
  | .auipc rd imm => Sys2Proof.Machine.execAuipc rd imm s
  | .jal rd off => Sys2Proof.Machine.execJal rd off s
  | .call off => Sys2Proof.Machine.execCall off s
  | .jalr rd rs1 imm => Sys2Proof.Machine.execJalr rd rs1 imm s
  | .ret => Sys2Proof.Machine.execRet s
  | .beq rs1 rs2 off => Sys2Proof.Machine.execBeq rs1 rs2 off s
  | .bne rs1 rs2 off => Sys2Proof.Machine.execBne rs1 rs2 off s
  | .blt rs1 rs2 off => Sys2Proof.Machine.execBlt rs1 rs2 off s
  | .bge rs1 rs2 off => Sys2Proof.Machine.execBge rs1 rs2 off s
  | .bltu rs1 rs2 off => Sys2Proof.Machine.execBltu rs1 rs2 off s
  | .bgeu rs1 rs2 off => Sys2Proof.Machine.execBgeu rs1 rs2 off s
  | .bra off => Sys2Proof.Machine.execBra off s
  | .lb rd rs1 imm => Sys2Proof.Machine.execLb rd rs1 imm s
  | .lh rd rs1 imm => Sys2Proof.Machine.execLh rd rs1 imm s
  | .lw rd rs1 imm => Sys2Proof.Machine.execLw rd rs1 imm s
  | .lbu rd rs1 imm => Sys2Proof.Machine.execLbu rd rs1 imm s
  | .lhu rd rs1 imm => Sys2Proof.Machine.execLhu rd rs1 imm s
  | .flw frd rs1 imm => Sys2Proof.Machine.execFlw frd rs1 imm s
  | .sb rs2 rs1 imm => Sys2Proof.Machine.execSb rs2 rs1 imm s
  | .sh rs2 rs1 imm => Sys2Proof.Machine.execSh rs2 rs1 imm s
  | .sw rs2 rs1 imm => Sys2Proof.Machine.execSw rs2 rs1 imm s
  | .fsw frs2 rs1 imm => Sys2Proof.Machine.execFsw frs2 rs1 imm s
  | .addi rd rs1 imm => Sys2Proof.Machine.execAddi rd rs1 imm s
  | .nop => Sys2Proof.Machine.execNop s
  | .slti rd rs1 imm => Sys2Proof.Machine.execSlti rd rs1 imm s
  | .sltui rd rs1 imm => Sys2Proof.Machine.execSltui rd rs1 imm s
  | .xori rd rs1 imm => Sys2Proof.Machine.execXori rd rs1 imm s
  | .ori rd rs1 imm => Sys2Proof.Machine.execOri rd rs1 imm s
  | .ldi rd imm => Sys2Proof.Machine.execLdi rd imm s
  | .andi rd rs1 imm => Sys2Proof.Machine.execAndi rd rs1 imm s
  | .slli rd rs1 shamt => Sys2Proof.Machine.execSlli rd rs1 shamt s
  | .srli rd rs1 shamt => Sys2Proof.Machine.execSrli rd rs1 shamt s
  | .srai rd rs1 shamt => Sys2Proof.Machine.execSrai rd rs1 shamt s
  | .add rd rs1 rs2 => Sys2Proof.Machine.execAdd rd rs1 rs2 s
  | .sub rd rs1 rs2 => Sys2Proof.Machine.execSub rd rs1 rs2 s
  | .mul rd rs1 rs2 => Sys2Proof.Machine.execMul rd rs1 rs2 s
  | .sll rd rs1 rs2 => Sys2Proof.Machine.execSll rd rs1 rs2 s
  | .slt rd rs1 rs2 => Sys2Proof.Machine.execSlt rd rs1 rs2 s
  | .sltu rd rs1 rs2 => Sys2Proof.Machine.execSltu rd rs1 rs2 s
  | .xor rd rs1 rs2 => Sys2Proof.Machine.execXor rd rs1 rs2 s
  | .srl rd rs1 rs2 => Sys2Proof.Machine.execSrl rd rs1 rs2 s
  | .sra rd rs1 rs2 => Sys2Proof.Machine.execSra rd rs1 rs2 s
  | .or rd rs1 rs2 => Sys2Proof.Machine.execOr rd rs1 rs2 s
  | .mov rd rs1 => Sys2Proof.Machine.execMov rd rs1 s
  | .and rd rs1 rs2 => Sys2Proof.Machine.execAnd rd rs1 rs2 s
  | .fadd frd frs1 frs2 rm => Sys2Proof.Machine.execFadd frd frs1 frs2 rm s
  | .fsub frd frs1 frs2 rm => Sys2Proof.Machine.execFsub frd frs1 frs2 rm s
  | .fmul frd frs1 frs2 rm => Sys2Proof.Machine.execFmul frd frs1 frs2 rm s
  | .fdiv frd frs1 frs2 rm => Sys2Proof.Machine.execFdiv frd frs1 frs2 rm s
  | .fmin frd frs1 frs2 => Sys2Proof.Machine.execFmin frd frs1 frs2 s
  | .fmax frd frs1 frs2 => Sys2Proof.Machine.execFmax frd frs1 frs2 s
  | .fsqrt frd frs1 rm => Sys2Proof.Machine.execFsqrt frd frs1 rm s
  | .fsgnj frd frs1 frs2 => Sys2Proof.Machine.execFsgnj frd frs1 frs2 s
  | .fmov frd frs1 => Sys2Proof.Machine.execFmov frd frs1 s
  | .fsgnjn frd frs1 frs2 => Sys2Proof.Machine.execFsgnjn frd frs1 frs2 s
  | .fneg frd frs1 => Sys2Proof.Machine.execFneg frd frs1 s
  | .fsgnjx frd frs1 frs2 => Sys2Proof.Machine.execFsgnjx frd frs1 frs2 s
  | .fabs frd frs1 => Sys2Proof.Machine.execFabs frd frs1 s
  | .feq rd frs1 frs2 => Sys2Proof.Machine.execFeq rd frs1 frs2 s
  | .flt rd frs1 frs2 => Sys2Proof.Machine.execFlt rd frs1 frs2 s
  | .fle rd frs1 frs2 => Sys2Proof.Machine.execFle rd frs1 frs2 s
  | .fcvtWS rd frs1 rm => Sys2Proof.Machine.execFcvtWS rd frs1 rm s
  | .fcvtWuS rd frs1 rm => Sys2Proof.Machine.execFcvtWuS rd frs1 rm s
  | .fcvtSW frd rs1 rm => Sys2Proof.Machine.execFcvtSW frd rs1 rm s
  | .fcvtSWu frd rs1 rm => Sys2Proof.Machine.execFcvtSWu frd rs1 rm s
  | .fmvXS rd frs1 => Sys2Proof.Machine.execFmvXS rd frs1 s
  | .fclass rd frs1 => Sys2Proof.Machine.execFclass rd frs1 s
  | .fmvSX frd rs1 => Sys2Proof.Machine.execFmvSX frd rs1 s
  | .fence pred succ => Sys2Proof.Machine.execFence pred succ s
  | .fenceI => Sys2Proof.Machine.execFenceI s
  | .ecall => Sys2Proof.Machine.execEcall s
  | .ebreak => Sys2Proof.Machine.execEbreak s
  | .eret => Sys2Proof.Machine.execEret s
  | .rdcycle rd => Sys2Proof.Machine.execRdcycle rd s
  | .rdcycleh rd => Sys2Proof.Machine.execRdcycleh rd s
  | .rdtime rd => Sys2Proof.Machine.execRdtime rd s
  | .rdtimeh rd => Sys2Proof.Machine.execRdtimeh rd s
  | .rdinstret rd => Sys2Proof.Machine.execRdinstret rd s
  | .rdinstreth rd => Sys2Proof.Machine.execRdinstreth rd s
  | .wfi => Sys2Proof.Machine.execWfi s
  | .pfi => Sys2Proof.Machine.execPfi s

end Sys2Proof.Machine
end

