-- ==== Sys2Proof/Machine/Step.lean ====
section
/-! DEFINITION. One step of the machine: a wait, an interrupt between instructions, or one instruction. -/

namespace Sys2Proof.Machine

/-- Fetch, decode and execute one instruction, and end the step. A word that is no instruction is answered by
ILLEGAL_BEHAVIOUR (R115). -/
def stepInstr (s : State) : Host.Outcome State Fault Refusal :=
  andThen (fetch s) fun w =>
    match decode w with
    | .error e => illegalBehaviour w e (s.afterRead s.pc 4)
    | .ok i => andThen (exec i (s.afterRead s.pc 4)) fun t => .next (finishInstr t)

/-- One step. A core that waits in WFI executes nothing until an interrupt is present (R38, R264). Otherwise a present,
enabled interrupt is taken before the fetch (R283, R287), and nothing retires (R272). Otherwise one instruction. -/
def step (s : State) : Host.Outcome State Fault Refusal :=
  if s.waiting then .next (finishInstr (waitForInterrupt s))
  else if s.interruptReady then .next (elapse (takeTrap (.interrupt .between) s))
  else stepInstr s

/-- The state with an instruction's word stored where the next step fetches, by whoever loads programs: the four bytes
at the program counter, with no wait and no interrupt due before the fetch, and not as bytes the hart has stored (R76). Log 36. -/
def State.withFetchWord (s : State) (nbits w : Nat) : State :=
  { s with
    mem := s.mem.writeBytes s.pc (bytesOfWord 4 (BitVec.ofNat 32 (w % 2 ^ nbits)))
    waiting := false
    stored := s.stored.filter fun a => 4 ≤ (a - s.pc).toNat
    irqs := if s.interruptReady then false :: s.irqs.tail else s.irqs }

end Sys2Proof.Machine
end

