-- ==== Sys2Proof/Safety.lean ====
section
/-! DEFINITION. The terms in which the claims speak: what an instruction left unchanged, what a good state is, and what it
means that a single-precision number is a rounded value. Nothing here changes what the machine does. -/

namespace Sys2Proof.Machine

/-! ## Good states -/

/-- A multiple of 4 (spec/10_state.md R27). -/
abbrev Aligned (a : Word) : Prop := a.extractLsb' 0 2 = 0

/-- The invariant of the machine: memory is in canonical form, interrupts are disabled in machine mode
(spec/60_exceptions.md R286), and both program counters are multiples of 4 (spec/20_memory.md R67). -/
structure State.Inv (s : State) : Prop where
  mem : Memory.wf s.mem
  ie : s.mode = .machine → s.ie = false
  pcU : Aligned s.pcU
  pcM : Aligned s.pcM

/-! ## Frames -/

/-- Nothing changed but registers, program counters, flags and memory: the mode, the interrupt masks, the rounding mode
register, the counters, the system argument registers, the wait state, the inputs and what the platform has seen are as before. -/
structure SameControl (s t : State) : Prop where
  mode : t.mode = s.mode
  ie : t.ie = s.ie
  pie : t.pie = s.pie
  frm : t.frm = s.frm
  cycle : t.cycle = s.cycle
  time : t.time = s.time
  instret : t.instret = s.instret
  sarg : t.sarg = s.sarg
  waiting : t.waiting = s.waiting
  irqs : t.irqs = s.irqs
  draws : t.draws = s.draws
  devices : t.devices = s.devices
  stored : t.stored = s.stored

/-- The context of the mode that is not current is as before (spec/10_state.md R23): its bank and its program counter. -/
def OtherContextKept (s t : State) : Prop :=
  match s.mode with
  | .user => t.xM = s.xM ∧ t.pcM = s.pcM
  | .machine => t.xU = s.xU ∧ t.pcU = s.pcU

/-- Every byte reads as before. -/
def SameMemory (s t : State) : Prop := ∀ a, Memory.read t.mem a = Memory.read s.mem a

/-- Every integer register of the current bank is as before. -/
def SameX (s t : State) : Prop := ∀ r, t.x r = s.x r

/-- Every floating-point register is as before. -/
def SameFp (s t : State) : Prop := ∀ r, t.fp r = s.fp r

/-- Integer register `rd` of the current bank holds `v`, every other one is as before; for `rd = 0` nothing was
written (spec/10_state.md R22). -/
def WroteX (s t : State) (rd : XReg) (v : Word) : Prop :=
  ∀ r, t.x r = if r = rd ∧ rd ≠ 0 then v else s.x r

/-- Floating-point register `frd` holds `v`, every other one is as before; for `frd = 0` nothing was written
(spec/10_state.md R28). -/
def WroteFp (s t : State) (frd : FReg) (v : Word) : Prop :=
  ∀ r, t.fp r = if r = frd ∧ frd ≠ 0 then v else s.fp r

/-- The instruction completes, writes `v` to integer register `rd`, adds `fl` to the flags, goes on at `pc` and changes
nothing else. -/
def CompletesX (i : Instr) (s : State) (rd : XReg) (v : Word) (fl : FFlags) (pc : Word) : Prop :=
  ∃ t, exec i s = .next t ∧ WroteX s t rd v ∧ t.pc = pc ∧ t.fflags = s.fflags.or fl ∧ SameFp s t ∧
    SameControl s t ∧ OtherContextKept s t ∧ SameMemory s t

/-- The instruction completes, writes `v` to floating-point register `frd`, adds `fl` to the flags, goes on at the next
instruction and changes nothing else. -/
def CompletesFp (i : Instr) (s : State) (frd : FReg) (v : Word) (fl : FFlags) : Prop :=
  ∃ t, exec i s = .next t ∧ WroteFp s t frd v ∧ t.pc = s.pc + 4 ∧ t.fflags = s.fflags.or fl ∧ SameX s t ∧
    SameControl s t ∧ OtherContextKept s t ∧ SameMemory s t

/-- The instruction completes, goes on at `pc` and changes nothing else at all. -/
def CompletesPc (i : Instr) (s : State) (pc : Word) : Prop :=
  ∃ t, exec i s = .next t ∧ t.pc = pc ∧ SameX s t ∧ SameFp s t ∧ t.fflags = s.fflags ∧
    SameControl s t ∧ OtherContextKept s t ∧ SameMemory s t

/-- The instruction completes, stores the low bytes of `v` at `a`, `a+1`, ..., `a+n-1` (addresses modulo 2^32, least
significant byte first), goes on at the next instruction and changes nothing else. -/
def CompletesStore (i : Instr) (s : State) (a : Word) (n : Nat) (v : Word) : Prop :=
  ∃ t, exec i s = .next t ∧
    (∀ k < n, Memory.read t.mem (a + BitVec.ofNat 32 k).toNat = some (v.extractLsb' (8 * k) 8)) ∧
    (∀ b : Word, (∀ k < n, b ≠ a + BitVec.ofNat 32 k) →
      Memory.read t.mem b.toNat = Memory.read s.mem b.toNat) ∧
    t.pc = s.pc + 4 ∧ SameX s t ∧ SameFp s t ∧ t.fflags = s.fflags ∧ SameControl s t ∧ OtherContextKept s t

/-- A 12-bit immediate as the signed number it stands for, in 32 bits (spec/30_encoding.md R106, R107; log 8). -/
def immValue (imm : BitVec 12) : Word := BitVec.ofInt 32 imm.toInt

/-- The address whose two low bits are cleared: the greatest multiple of 4 not above a number, modulo 2^32
(spec/41_control_flow.md R170, R172). -/
def jumpTarget (x : Int) : Word := BitVec.ofInt 32 (x / 4 * 4)

/-- The target of a branch: its own address plus twice the encoded displacement (spec/41_control_flow.md R174). -/
def branchTarget (s : State) (off : BitVec 12) : Word := BitVec.ofInt 32 (s.pc.toInt + 2 * off.toInt)

/-- All `n` bytes from `a` are of class ram, so a store there is performed (spec/20_memory.md R69). -/
def AllRam (a : Word) (n : Nat) : Prop := ∀ k < n, regionOf (a + BitVec.ofNat 32 k) = .ram

/-- The bytes from `a` are of class ram or rom and are `bs`. -/
def BytesAt (s : State) (a : Word) (bs : List Byte) : Prop :=
  ∀ k (h : k < bs.length), (regionOf (a + BitVec.ofNat 32 k) = .ram ∨ regionOf (a + BitVec.ofNat 32 k) = .rom) ∧
    s.mem.read (a + BitVec.ofNat 32 k).toNat = some bs[k]

/-- The instructions that store to memory. -/
def isStore : Instr → Bool
  | .sb _ _ _ | .sh _ _ _ | .sw _ _ _ | .fsw _ _ _ => true
  | _ => false

/-- Apply a function to the next state, if there is one. -/
def mapNext (g : State → State) : Result → Result
  | .next t => .next (g t)
  | .fault e => .fault e
  | .refused r => .refused r

/-- The instruction that the next step executes, if it executes one: no wait, no interrupt due, a fetched word that
decodes. -/
def Executes (s : State) (i : Instr) : Prop :=
  s.waiting = false ∧ s.interruptReady = false ∧ ∃ w, fetch s = .next w ∧ decode w = .ok i

/-! ## Rounding (spec/43_floating_point.md R212, R216) -/

/-- The value of a finite single-precision number (R210). -/
def fpVal (w : Word) : ℚ := (fpInt w : ℚ) / 2 ^ 149

/-- `v` is the greatest single-precision number not above `x`; minus infinity where every finite number is above. -/
def GreatestBelow (x : ℚ) (v : Word) : Prop :=
  (isFinite v = true ∧ fpVal v ≤ x ∧ ∀ w, isFinite w = true → fpVal w ≤ x → fpVal w ≤ fpVal v) ∨
  (v = signedInf true ∧ ∀ w, isFinite w = true → x < fpVal w)

/-- `v` is the least single-precision number not below `x`; plus infinity where every finite number is below. -/
def LeastAbove (x : ℚ) (v : Word) : Prop :=
  (isFinite v = true ∧ x ≤ fpVal v ∧ ∀ w, isFinite w = true → x ≤ fpVal w → fpVal v ≤ fpVal w) ∨
  (v = signedInf false ∧ ∀ w, isFinite w = true → fpVal w < x)

/-- `v` is a single-precision number nearest to `x`; an infinity from half a unit above the largest finite number on. -/
def Nearest (x : ℚ) (v : Word) : Prop :=
  if |x| < 2 ^ 128 - 2 ^ 103 then
    isFinite v = true ∧ ∀ w, isFinite w = true → |fpVal v - x| ≤ |fpVal w - x|
  else v = signedInf (decide (x < 0))

/-- `w` is another finite number as near to `x` as `v` is. -/
def TiesWith (x : ℚ) (v w : Word) : Prop :=
  isFinite v = true ∧ isFinite w = true ∧ fpVal w ≠ fpVal v ∧ |fpVal w - x| = |fpVal v - x|

/-- `v` is `x` rounded to single precision in a mode (R212). -/
def RoundsTo (m : Rounding) (x : ℚ) (v : Word) : Prop :=
  match m with
  | .rne => Nearest x v ∧ ∀ w, TiesWith x v w → v.getLsbD 0 = false
  | .rmm => Nearest x v ∧ ∀ w, TiesWith x v w → |fpVal w| ≤ |fpVal v|
  | .rdn => GreatestBelow x v
  | .rup => LeastAbove x v
  | .rtz => if 0 ≤ x then GreatestBelow x v else LeastAbove x v

/-- The number with this sign and this magnitude `p/q`. -/
def signedRatio (sign : Bool) (p q : Nat) : ℚ := (if sign then -1 else 1) * ((p : ℚ) / q)

end Sys2Proof.Machine
end

