-- ==== Sys2Proof/Certificates/Slice0/Obligations.lean ====
section
/-! DEFINITION. The statements about the model, for the provers. Values are given by arithmetic on numbers or by the bytes
involved wherever the spec's rule can be said so, and by a function of the model where its meaning has statements of its
own (rounding, conversion, minimum, class). -/

open Sys2Proof Sys2Proof.Machine

/-! ## Encoding (spec/30_encoding.md) -/

/-- Decoding the word of a well-formed instruction gives the instruction back, whatever its operands. -/
def Obligations.DecodeEncodeRoundTrip : Prop :=
  ∀ i : Instr, i.wellFormed = true → decode (encode i) = .ok i

/-- A word that decodes is the word of a well-formed instruction: no bit of it is ignored. -/
def Obligations.EncodeDecodeRoundTrip : Prop :=
  ∀ (w : Word) (i : Instr), decode w = .ok i → i.wellFormed = true ∧ encode i = w

/-- R113: a word is the instruction of a row exactly when it agrees with the row's constants. -/
def Obligations.DecodeMatchesTable : Prop :=
  ∀ (w : Word) (r : TableRow), r ∈ tableRows →
    (r.matches w = true ↔ ∃ i, decodeBase w = .ok i ∧ i.mnemonic = r.mnemonic)

/-- R112: no two rows of the table match the same word. -/
def Obligations.TableRowsDisjoint : Prop :=
  ∀ (w : Word) (r q : TableRow), r ∈ tableRows → q ∈ tableRows → r.matches w = true → q.matches w = true → r = q

/-- R117: each extended mnemonic has the word and the effect of the instruction it abbreviates. -/
def Obligations.ExtendedMnemonicsAreTheirBase : Prop :=
  (encode .nop = encode (.addi 0 0 0) ∧ ∀ s, exec .nop s = exec (.addi 0 0 0) s) ∧
  (∀ rd imm, encode (.ldi rd imm) = encode (.ori rd 0 imm) ∧ ∀ s, exec (.ldi rd imm) s = exec (.ori rd 0 imm) s) ∧
  (∀ rd rs1, encode (.mov rd rs1) = encode (.or rd rs1 0) ∧ ∀ s, exec (.mov rd rs1) s = exec (.or rd rs1 0) s) ∧
  (∀ off, encode (.bra off) = encode (.beq 0 0 off) ∧ ∀ s, exec (.bra off) s = exec (.beq 0 0 off) s) ∧
  (∀ off, encode (.call off) = encode (.jal 1 off) ∧ ∀ s, exec (.call off) s = exec (.jal 1 off) s) ∧
  (encode .ret = encode (.jalr 0 1 0) ∧ ∀ s, exec .ret s = exec (.jalr 0 1 0) s) ∧
  (∀ frd frs1, encode (.fmov frd frs1) = encode (.fsgnj frd frs1 frs1) ∧
    ∀ s, exec (.fmov frd frs1) s = exec (.fsgnj frd frs1 frs1) s) ∧
  (∀ frd frs1, encode (.fneg frd frs1) = encode (.fsgnjn frd frs1 frs1) ∧
    ∀ s, exec (.fneg frd frs1) s = exec (.fsgnjn frd frs1 frs1) s) ∧
  (∀ frd frs1, encode (.fabs frd frs1) = encode (.fsgnjx frd frs1 frs1) ∧
    ∀ s, exec (.fabs frd frs1) s = exec (.fsgnjx frd frs1 frs1) s)

/-- Words of spec/95_test_vectors.md section 2, one of every format, decode to the instructions they stand for. -/
def Obligations.SampleWordsDecode : Prop :=
  decode 0xFFFFF2B7 = .ok (.lui 5 0xFFFFF) ∧ decode 0x7FDFF06F = .ok (.jal 0 0x7FFFE) ∧
  decode 0x800302E7 = .ok (.jalr 5 6 0x800) ∧ decode 0x7E731EE3 = .ok (.bne 6 7 0x7FE) ∧
  decode 0x7FF30283 = .ok (.lb 5 6 0x7FF) ∧ decode 0xFE732E27 = .ok (.fsw 7 6 0xFFC) ∧
  decode 0x21F35293 = .ok (.srai 5 6 31) ∧ decode 0x403100B3 = .ok (.sub 1 2 3) ∧
  decode 0x01DF4FD3 = .ok (.fadd 31 30 29 4) ∧ decode 0x0310000F = .ok (.fence 3 1) ∧
  decode 0x10100073 = .ok .wfi

/-! ## The step -/

/-- When the four bytes at an aligned program counter decode, the core does not wait and no interrupt is due, a step is
`exec` of that instruction, followed by the end of a step: `time` advances, the environment's next level of `irq` comes,
and, unless the instruction is a WFI that waits, `instret` rises by 1 and `cycle` by at least 1. -/
def Obligations.StepRunsDecoded : Prop :=
  ∀ (s : State) (bs : List Byte) (i : Instr), s.waiting = false → s.interruptReady = false → Aligned s.pc →
    bs.length = 4 → BytesAt s s.pc bs → decodeBytes bs = .ok i →
    step s = mapNext (fun t => { t with
      instret := if t.waiting then t.instret else t.instret + 1
      cycle := if t.waiting then t.cycle else t.cycle + 1 + BitVec.ofNat 64 (Config.cycleExtra t.draws)
      time := t.time + BitVec.ofNat 64 (Config.timeAdvance t.draws)
      irqs := t.irqs.tail
      draws := t.draws + 1 }) (exec i s)

/-- An instruction placed at the program counter is what the next step executes (log 36: placing stands for the load of
a program from outside). -/
def Obligations.PlacedInstructionIsExecuted : Prop :=
  ∀ (s : State) (i : Instr), i.wellFormed = true → Aligned s.pc →
    step (s.withFetchWord 32 (encode i).toNat) =
      mapNext finishInstr (exec i (s.withFetchWord 32 (encode i).toNat))

/-- R115: a fetched word that matches no row of the table is refused by name, never executed. -/
def Obligations.UnlistedWordRefused : Prop :=
  ∀ (s : State) (w : Word), s.waiting = false → s.interruptReady = false → fetch s = .next w →
    (∀ r ∈ tableRows, r.matches w = false) → ∃ e, step s = .refused (.unlistedEncoding w e)

/-! ## Registers (spec/10_state.md) -/

/-- R25: each mode has its own program counter, and a step in one mode leaves the other's alone, except that trap entry
saves the user address; trap entry loads pcM from nowhere, and an ERET leaves pcM at the address after it. -/
def Obligations.ProgramCounterPerMode : Prop :=
  (∀ s : State, s.pc = if s.mode = .user then s.pcU else s.pcM) ∧
  (∀ s t : State, step s = .next t → s.mode = .user → t.pcM = s.pcM) ∧
  (∀ s t : State, step s = .next t → s.mode = .machine → t.pcU = s.pcU) ∧
  (∀ s t : State, Executes s .eret → step s = .next t → t.pcM = s.pcM + 4)

/-- R21, R22, R28: a register operand reads and writes the bank of the current mode; register 0 of either file reads as
zero and discards what is written to it (log 27). -/
def Obligations.RegisterFiles : Prop :=
  ∀ (s : State) (r q : BitVec 5) (v : Word),
    s.x r = (if r = 0 then 0 else if s.mode = .user then s.xU.read r else s.xM.read r) ∧
    (s.setX r v).x q = (if q = r ∧ r ≠ 0 then v else s.x q) ∧
    (s.setFp r v).fp q = (if q = r ∧ r ≠ 0 then v else s.fp q) ∧
    s.fp 0 = 0 ∧ s.setX 0 v = s ∧ s.setFp 0 v = s

/-! ## Integer instructions (spec/40_integer.md) -/

/-- R142 to R152: the register forms, for every operand, whichever registers coincide; `rd = 0` writes nothing. -/
def Obligations.IntegerRegisterForms : Prop :=
  ∀ (s : State) (rd rs1 rs2 : XReg),
    CompletesX (.add rd rs1 rs2) s rd (BitVec.ofNat 32 ((s.x rs1).toNat + (s.x rs2).toNat)) {} (s.pc + 4) ∧
    CompletesX (.sub rd rs1 rs2) s rd (BitVec.ofInt 32 ((s.x rs1).toInt - (s.x rs2).toInt)) {} (s.pc + 4) ∧
    CompletesX (.mul rd rs1 rs2) s rd (BitVec.ofNat 32 ((s.x rs1).toNat * (s.x rs2).toNat)) {} (s.pc + 4) ∧
    CompletesX (.sll rd rs1 rs2) s rd
      (BitVec.ofNat 32 ((s.x rs1).toNat * 2 ^ ((s.x rs2).toNat % 32))) {} (s.pc + 4) ∧
    CompletesX (.srl rd rs1 rs2) s rd
      (BitVec.ofNat 32 ((s.x rs1).toNat / 2 ^ ((s.x rs2).toNat % 32))) {} (s.pc + 4) ∧
    CompletesX (.sra rd rs1 rs2) s rd
      (BitVec.ofInt 32 ((s.x rs1).toInt / 2 ^ ((s.x rs2).toNat % 32))) {} (s.pc + 4) ∧
    CompletesX (.slt rd rs1 rs2) s rd (if (s.x rs1).toInt < (s.x rs2).toInt then 1 else 0) {} (s.pc + 4) ∧
    CompletesX (.sltu rd rs1 rs2) s rd (if (s.x rs1).toNat < (s.x rs2).toNat then 1 else 0) {} (s.pc + 4) ∧
    CompletesX (.xor rd rs1 rs2) s rd (s.x rs1 ^^^ s.x rs2) {} (s.pc + 4) ∧
    CompletesX (.or rd rs1 rs2) s rd (s.x rs1 ||| s.x rs2) {} (s.pc + 4) ∧
    CompletesX (.and rd rs1 rs2) s rd (s.x rs1 &&& s.x rs2) {} (s.pc + 4)

/-- R133 to R141: the immediate forms. -/
def Obligations.IntegerImmediateForms : Prop :=
  ∀ (s : State) (rd rs1 : XReg) (imm : BitVec 12) (shamt : BitVec 5),
    CompletesX (.addi rd rs1 imm) s rd (BitVec.ofInt 32 ((s.x rs1).toInt + imm.toInt)) {} (s.pc + 4) ∧
    CompletesX (.slti rd rs1 imm) s rd (if (s.x rs1).toInt < imm.toInt then 1 else 0) {} (s.pc + 4) ∧
    CompletesX (.sltui rd rs1 imm) s rd (if (s.x rs1).toNat < (immValue imm).toNat then 1 else 0) {} (s.pc + 4) ∧
    CompletesX (.xori rd rs1 imm) s rd (s.x rs1 ^^^ immValue imm) {} (s.pc + 4) ∧
    CompletesX (.ori rd rs1 imm) s rd (s.x rs1 ||| immValue imm) {} (s.pc + 4) ∧
    CompletesX (.andi rd rs1 imm) s rd (s.x rs1 &&& immValue imm) {} (s.pc + 4) ∧
    CompletesX (.slli rd rs1 shamt) s rd (BitVec.ofNat 32 ((s.x rs1).toNat * 2 ^ shamt.toNat)) {} (s.pc + 4) ∧
    CompletesX (.srli rd rs1 shamt) s rd (BitVec.ofNat 32 ((s.x rs1).toNat / 2 ^ shamt.toNat)) {} (s.pc + 4) ∧
    CompletesX (.srai rd rs1 shamt) s rd (BitVec.ofInt 32 ((s.x rs1).toInt / 2 ^ shamt.toNat)) {} (s.pc + 4)

/-- R131, R132, R153 to R155: LUI, AUIPC, LDI, MOV and NOP. -/
def Obligations.UpperMoveAndNopForms : Prop :=
  ∀ (s : State) (rd rs1 : XReg) (imm20 : BitVec 20) (imm : BitVec 12),
    CompletesX (.lui rd imm20) s rd (BitVec.ofNat 32 (imm20.toNat * 4096)) {} (s.pc + 4) ∧
    CompletesX (.auipc rd imm20) s rd (BitVec.ofNat 32 (s.pc.toNat + imm20.toNat * 4096)) {} (s.pc + 4) ∧
    CompletesX (.ldi rd imm) s rd (immValue imm) {} (s.pc + 4) ∧
    CompletesX (.mov rd rs1) s rd (s.x rs1) {} (s.pc + 4) ∧
    CompletesPc .nop s (s.pc + 4)

/-! ## Control flow (spec/41_control_flow.md) -/

/-- R170 to R173: the jumps clear the two low bits of the target and leave the address after themselves in the link
register; JALR reads its base register before writing the link, also where the two are one. -/
def Obligations.JumpForms : Prop :=
  ∀ (s : State) (rd rs1 : XReg) (off : BitVec 20) (imm : BitVec 12),
    CompletesX (.jal rd off) s rd (s.pc + 4) {} (jumpTarget (s.pc.toInt + 2 * off.toInt)) ∧
    CompletesX (.call off) s 1 (s.pc + 4) {} (jumpTarget (s.pc.toInt + 2 * off.toInt)) ∧
    CompletesX (.jalr rd rs1 imm) s rd (s.pc + 4) {} (jumpTarget ((s.x rs1).toInt + imm.toInt)) ∧
    CompletesPc .ret s (jumpTarget (s.x 1).toInt)

/-- R174, R175, R177, R180 to R184: a branch whose condition holds goes to its target, where that is a multiple of 4; one
whose condition fails goes on with the next instruction, whatever its displacement. Nothing else changes. -/
def Obligations.BranchForms : Prop :=
  ∀ (s : State) (rs1 rs2 : XReg) (off : BitVec 12),
    ((s.x rs1 = s.x rs2 → Aligned (branchTarget s off)) →
      CompletesPc (.beq rs1 rs2 off) s (if s.x rs1 = s.x rs2 then branchTarget s off else s.pc + 4)) ∧
    ((s.x rs1 ≠ s.x rs2 → Aligned (branchTarget s off)) →
      CompletesPc (.bne rs1 rs2 off) s (if s.x rs1 ≠ s.x rs2 then branchTarget s off else s.pc + 4)) ∧
    (((s.x rs1).toInt < (s.x rs2).toInt → Aligned (branchTarget s off)) →
      CompletesPc (.blt rs1 rs2 off) s
        (if (s.x rs1).toInt < (s.x rs2).toInt then branchTarget s off else s.pc + 4)) ∧
    (((s.x rs2).toInt ≤ (s.x rs1).toInt → Aligned (branchTarget s off)) →
      CompletesPc (.bge rs1 rs2 off) s
        (if (s.x rs2).toInt ≤ (s.x rs1).toInt then branchTarget s off else s.pc + 4)) ∧
    (((s.x rs1).toNat < (s.x rs2).toNat → Aligned (branchTarget s off)) →
      CompletesPc (.bltu rs1 rs2 off) s
        (if (s.x rs1).toNat < (s.x rs2).toNat then branchTarget s off else s.pc + 4)) ∧
    (((s.x rs2).toNat ≤ (s.x rs1).toNat → Aligned (branchTarget s off)) →
      CompletesPc (.bgeu rs1 rs2 off) s
        (if (s.x rs2).toNat ≤ (s.x rs1).toNat then branchTarget s off else s.pc + 4)) ∧
    (Aligned (branchTarget s off) → CompletesPc (.bra off) s (branchTarget s off))

/-- Log 11 (D5): a taken branch to an address that is not a multiple of 4 is refused, and so is the fetch at a program
counter that is not one. -/
def Obligations.MisalignedTransferRefused : Prop :=
  (∀ s : State, s.waiting = false → s.interruptReady = false → ¬ Aligned s.pc →
    step s = .refused (.misalignedFetch s.pc)) ∧
  ∀ (s : State) (rs1 rs2 : XReg) (off : BitVec 12), ¬ Aligned (branchTarget s off) →
    (s.x rs1 = s.x rs2 → exec (.beq rs1 rs2 off) s = .refused (.misalignedBranchTarget (branchTarget s off))) ∧
    (s.x rs1 ≠ s.x rs2 → exec (.bne rs1 rs2 off) s = .refused (.misalignedBranchTarget (branchTarget s off))) ∧
    ((s.x rs1).toInt < (s.x rs2).toInt →
      exec (.blt rs1 rs2 off) s = .refused (.misalignedBranchTarget (branchTarget s off))) ∧
    ((s.x rs2).toInt ≤ (s.x rs1).toInt →
      exec (.bge rs1 rs2 off) s = .refused (.misalignedBranchTarget (branchTarget s off))) ∧
    ((s.x rs1).toNat < (s.x rs2).toNat →
      exec (.bltu rs1 rs2 off) s = .refused (.misalignedBranchTarget (branchTarget s off))) ∧
    ((s.x rs2).toNat ≤ (s.x rs1).toNat →
      exec (.bgeu rs1 rs2 off) s = .refused (.misalignedBranchTarget (branchTarget s off))) ∧
    exec (.bra off) s = .refused (.misalignedBranchTarget (branchTarget s off))

/-- R74: FENCE with any sets, and FENCE.I, change no state except `pc`. -/
def Obligations.FencesAreNops : Prop :=
  ∀ (s : State) (pred succ : BitVec 4),
    CompletesPc (.fence pred succ) s (s.pc + 4) ∧ CompletesPc .fenceI s (s.pc + 4)

/-! ## Loads and stores (spec/42_memory_instructions.md) -/

/-- R61, R63, R190 to R196: the effective address, and a load of readable bytes, at any alignment, the byte at the lowest
address least significant. -/
def Obligations.LoadForms : Prop :=
  ∀ (s : State) (rd rs1 : XReg) (imm : BitVec 12) (b0 b1 b2 b3 : Byte),
    s.ea rs1 imm = BitVec.ofInt 32 ((s.x rs1).toInt + imm.toInt) ∧
    (BytesAt s (s.ea rs1 imm) [b0] →
      CompletesX (.lb rd rs1 imm) s rd (BitVec.ofInt 32 b0.toInt) {} (s.pc + 4) ∧
      CompletesX (.lbu rd rs1 imm) s rd (BitVec.ofNat 32 b0.toNat) {} (s.pc + 4)) ∧
    (BytesAt s (s.ea rs1 imm) [b0, b1] →
      CompletesX (.lh rd rs1 imm) s rd (BitVec.ofInt 32 (b1 ++ b0).toInt) {} (s.pc + 4) ∧
      CompletesX (.lhu rd rs1 imm) s rd (BitVec.ofNat 32 (b1 ++ b0).toNat) {} (s.pc + 4)) ∧
    (BytesAt s (s.ea rs1 imm) [b0, b1, b2, b3] →
      CompletesX (.lw rd rs1 imm) s rd (b3 ++ b2 ++ b1 ++ b0) {} (s.pc + 4) ∧
      CompletesFp (.flw rd rs1 imm) s rd (b3 ++ b2 ++ b1 ++ b0) {})

/-- R64, R197 to R200: a store to ram, at any alignment, changes the bytes it stores to and no other. -/
def Obligations.StoreForms : Prop :=
  ∀ (s : State) (rs2 rs1 : XReg) (imm : BitVec 12),
    (AllRam (s.ea rs1 imm) 1 → CompletesStore (.sb rs2 rs1 imm) s (s.ea rs1 imm) 1 (s.x rs2)) ∧
    (AllRam (s.ea rs1 imm) 2 → CompletesStore (.sh rs2 rs1 imm) s (s.ea rs1 imm) 2 (s.x rs2)) ∧
    (AllRam (s.ea rs1 imm) 4 → CompletesStore (.sw rs2 rs1 imm) s (s.ea rs1 imm) 4 (s.x rs2)) ∧
    (AllRam (s.ea rs1 imm) 4 → CompletesStore (.fsw rs2 rs1 imm) s (s.ea rs1 imm) 4 (s.fp rs2))

/-- R65: what SW and FSW stored is read back by a byte, half-word or word load of the stored addresses, and (log 19, D13) by
a fetch. -/
def Obligations.LoadsReadStores : Prop :=
  ∀ (s t : State) (v : Word) (a : Word) (rd rs1 : XReg) (imm : BitVec 12),
    ((∃ rs2 rs imm', exec (.sw rs2 rs imm') s = .next t ∧ a = s.ea rs imm' ∧ v = s.x rs2) ∨
      (∃ frs2 rs imm', exec (.fsw frs2 rs imm') s = .next t ∧ a = s.ea rs imm' ∧ v = s.fp frs2)) →
    (∀ k < 4, t.ea rs1 imm = a + BitVec.ofNat 32 k →
      CompletesX (.lbu rd rs1 imm) t rd (BitVec.ofNat 32 (v.extractLsb' (8 * k) 8).toNat) {} (t.pc + 4)) ∧
    (t.ea rs1 imm = a →
      CompletesX (.lhu rd rs1 imm) t rd (BitVec.ofNat 32 (v.extractLsb' 0 16).toNat) {} (t.pc + 4)) ∧
    (t.ea rs1 imm = a + 2 →
      CompletesX (.lhu rd rs1 imm) t rd (BitVec.ofNat 32 (v.extractLsb' 16 16).toNat) {} (t.pc + 4)) ∧
    (t.ea rs1 imm = a →
      CompletesX (.lw rd rs1 imm) t rd v {} (t.pc + 4) ∧ CompletesFp (.flw rd rs1 imm) t rd v {}) ∧
    (t.pc = a → Aligned a → fetch t = .next v)

/-- Log 2 (D20, R45): a load whose first byte without a value lies at offset `k` faults there. -/
def Obligations.UnwrittenLoadFaults : Prop :=
  ∀ (s : State) (rd rs1 : XReg) (imm : BitVec 12) (k : Nat) (a : Word), a = s.ea rs1 imm + BitVec.ofNat 32 k →
    regionOf a = .ram ∨ regionOf a = .rom → s.mem.read a.toNat = none →
    (∀ j < k, ∃ b, readByte s (s.ea rs1 imm + BitVec.ofNat 32 j) = .next b) →
    (k < 1 → exec (.lb rd rs1 imm) s = .fault (.unwrittenByte a) ∧
      exec (.lbu rd rs1 imm) s = .fault (.unwrittenByte a)) ∧
    (k < 2 → exec (.lh rd rs1 imm) s = .fault (.unwrittenByte a) ∧
      exec (.lhu rd rs1 imm) s = .fault (.unwrittenByte a)) ∧
    (k < 4 → exec (.lw rd rs1 imm) s = .fault (.unwrittenByte a) ∧
      exec (.flw rd rs1 imm) s = .fault (.unwrittenByte a))

/-- R69 (D26, log 6): a store whose first byte outside ram lies in the rom, at offset `k`, is refused as a whole. -/
def Obligations.StoreToRomRefused : Prop :=
  ∀ (s : State) (rs2 rs1 : XReg) (imm : BitVec 12) (k : Nat) (a : Word), a = s.ea rs1 imm + BitVec.ofNat 32 k →
    regionOf a = .rom → AllRam (s.ea rs1 imm) k →
    (k < 1 → exec (.sb rs2 rs1 imm) s = .refused (.storeToRom a)) ∧
    (k < 2 → exec (.sh rs2 rs1 imm) s = .refused (.storeToRom a)) ∧
    (k < 4 → exec (.sw rs2 rs1 imm) s = .refused (.storeToRom a) ∧
      exec (.fsw rs2 rs1 imm) s = .refused (.storeToRom a))

/-- Every instruction but SB, SH, SW and FSW leaves memory as it is. -/
def Obligations.OnlyStoresChangeMemory : Prop :=
  ∀ (i : Instr) (s t : State), isStore i = false → exec i s = .next t → t.mem = s.mem

/-! ## Floating point (spec/43_floating_point.md) -/

/-- R216, R220 to R223, R226: the arithmetic instructions complete in every mode that is not reserved, write the rounded
result and add the flags of model `source` (R215; log 22). -/
def Obligations.FloatArithmeticForms : Prop :=
  ∀ (s : State) (frd frs1 frs2 : FReg) (rm : BitVec 3) (m : Rounding) (a b : Word),
    roundingOfCode (if rm = 7 then s.frm else rm) = some m → a = s.fp frs1 → b = s.fp frs2 →
    CompletesFp (.fadd frd frs1 frs2 rm) s frd (fpAdd m a b).bits
      { uf := isDenormal (fpAdd m a b).bits
        of := isInf (fpAdd m a b).bits && isFinite a && isFinite b
        nx := (fpAdd m a b).inexact } ∧
    CompletesFp (.fsub frd frs1 frs2 rm) s frd (fpSub m a b).bits
      { uf := isDenormal (fpSub m a b).bits
        of := isInf (fpSub m a b).bits && isFinite a && isFinite b
        nx := (fpSub m a b).inexact } ∧
    CompletesFp (.fmul frd frs1 frs2 rm) s frd (fpMul m a b).bits
      { uf := isDenormal (fpMul m a b).bits
        of := isInf (fpMul m a b).bits && isFinite a && isFinite b
        nx := (fpMul m a b).inexact } ∧
    CompletesFp (.fdiv frd frs1 frs2 rm) s frd (fpDiv m a b).bits
      { uf := isDenormal (fpDiv m a b).bits
        of := isInf (fpDiv m a b).bits && isFinite a && isFinite b && !isZero b
        nx := (fpDiv m a b).inexact
        dz := isZero b && !isNan a } ∧
    CompletesFp (.fsqrt frd frs1 rm) s frd (fpSqrt m a).bits
      { nx := (fpSqrt m a).inexact
        dz := isZero a
        nv := fpSign a && !isZero a && !isNan a }

/-- R236 to R239: the conversions complete in every mode that is not reserved. -/
def Obligations.ConvertForms : Prop :=
  ∀ (s : State) (d : BitVec 5) (frs1 : FReg) (rs1 : XReg) (rm : BitVec 3) (m : Rounding),
    roundingOfCode (if rm = 7 then s.frm else rm) = some m →
    CompletesX (.fcvtWS d frs1 rm) s d (fpToInt signedRange m (s.fp frs1)).value
      { nv := (fpToInt signedRange m (s.fp frs1)).nv, nx := (fpToInt signedRange m (s.fp frs1)).nx } (s.pc + 4) ∧
    CompletesX (.fcvtWuS d frs1 rm) s d (fpToInt unsignedRange m (s.fp frs1)).value
      { nv := (fpToInt unsignedRange m (s.fp frs1)).nv
        nx := (fpToInt unsignedRange m (s.fp frs1)).nx } (s.pc + 4) ∧
    CompletesFp (.fcvtSW d rs1 rm) s d (intToFp m (s.x rs1).toInt).bits
      { nx := (intToFp m (s.x rs1).toInt).inexact } ∧
    CompletesFp (.fcvtSWu d rs1 rm) s d (intToFp m (s.x rs1).toNat).bits
      { nx := (intToFp m (s.x rs1).toNat).inexact }

/-- R212 (D15): the code that each of the five rounding modes has. R213 (D32, log 31): where the effective code is 5, 6
or 7, all nine rounding instructions are refused. -/
def Obligations.RoundingModeCodes : Prop :=
  (∀ (c : BitVec 3) (m : Rounding), roundingOfCode c = some m ↔
    c.toNat = match m with
      | .rne => 0
      | .rtz => 1
      | .rdn => 2
      | .rup => 3
      | .rmm => 4) ∧
  ∀ (s : State) (d : BitVec 5) (frs1 frs2 : FReg) (rs1 : XReg) (rm c : BitVec 3),
    c = (if rm = 7 then s.frm else rm) → 5 ≤ c.toNat →
    exec (.fadd d frs1 frs2 rm) s = .refused (.reservedRoundingMode c) ∧
    exec (.fsub d frs1 frs2 rm) s = .refused (.reservedRoundingMode c) ∧
    exec (.fmul d frs1 frs2 rm) s = .refused (.reservedRoundingMode c) ∧
    exec (.fdiv d frs1 frs2 rm) s = .refused (.reservedRoundingMode c) ∧
    exec (.fsqrt d frs1 rm) s = .refused (.reservedRoundingMode c) ∧
    exec (.fcvtWS d frs1 rm) s = .refused (.reservedRoundingMode c) ∧
    exec (.fcvtWuS d frs1 rm) s = .refused (.reservedRoundingMode c) ∧
    exec (.fcvtSW d rs1 rm) s = .refused (.reservedRoundingMode c) ∧
    exec (.fcvtSWu d rs1 rm) s = .refused (.reservedRoundingMode c)

/-- R216: if an operand is a Nan, the result is a Nan (its pattern is a free value, log 21), and it is not marked inexact
(R215). -/
def Obligations.NanInNanOut : Prop :=
  ∀ (m : Rounding) (a b : Word), isNan a = true ∨ isNan b = true →
    isNan (fpAdd m a b).bits = true ∧ isNan (fpSub m a b).bits = true ∧ isNan (fpMul m a b).bits = true ∧
    isNan (fpDiv m a b).bits = true ∧ (isNan a = true → isNan (fpSqrt m a).bits = true) ∧
    (fpAdd m a b).inexact = false ∧ (fpSub m a b).inexact = false ∧ (fpMul m a b).inexact = false ∧
    (fpDiv m a b).inexact = false ∧ (isNan a = true → (fpSqrt m a).inexact = false)

/-- R216, R226: infinities and zeros in sums, products, quotients and roots; what is delivered is exact (R215). -/
def Obligations.SpecialOperands : Prop :=
  ∀ (m : Rounding) (a b : Word), isNan a = false → isNan b = false →
    (isInf a = true → isInf b = true →
      (if fpSign a = fpSign b then (fpAdd m a b).bits = a ∧ isNan (fpSub m a b).bits = true
       else isNan (fpAdd m a b).bits = true ∧ (fpSub m a b).bits = a) ∧
      isNan (fpDiv m a b).bits = true) ∧
    (isInf a = true → isFinite b = true → (fpAdd m a b).bits = a ∧ (fpSub m a b).bits = a ∧
      (fpDiv m a b).bits = signedInf (fpSign a ^^ fpSign b)) ∧
    (isFinite a = true → isInf b = true → (fpAdd m a b).bits = b ∧ (fpSub m a b).bits = signedInf (!fpSign b) ∧
      (fpDiv m a b).bits = signedZero (fpSign a ^^ fpSign b)) ∧
    ((isInf a = true ∧ isZero b = true) ∨ (isZero a = true ∧ isInf b = true) → isNan (fpMul m a b).bits = true) ∧
    ((isInf a = true ∧ isZero b = false) ∨ (isZero a = false ∧ isInf b = true) →
      (fpMul m a b).bits = signedInf (fpSign a ^^ fpSign b)) ∧
    (isZero a = true → isZero b = true → isNan (fpDiv m a b).bits = true) ∧
    (isFinite a = true → isZero a = false → isZero b = true →
      (fpDiv m a b).bits = signedInf (fpSign a ^^ fpSign b)) ∧
    (isFinite a = true → isFinite b = true → isZero a = true ∨ isZero b = true →
      (fpMul m a b).bits = signedZero (fpSign a ^^ fpSign b)) ∧
    (isZero a = true → isFinite b = true → isZero b = false →
      (fpDiv m a b).bits = signedZero (fpSign a ^^ fpSign b)) ∧
    (isZero a = true → (fpSqrt m a).bits = a) ∧
    (isInf a = true → fpSign a = false → (fpSqrt m a).bits = a) ∧
    (isZero a = false → fpSign a = true → isNan (fpSqrt m a).bits = true) ∧
    (isInf a = true ∨ isInf b = true → (fpAdd m a b).inexact = false ∧ (fpSub m a b).inexact = false) ∧
    (isInf a = true ∨ isInf b = true ∨ isZero a = true ∨ isZero b = true →
      (fpMul m a b).inexact = false ∧ (fpDiv m a b).inexact = false) ∧
    (isInf a = true ∨ isZero a = true ∨ fpSign a = true → (fpSqrt m a).inexact = false)

/-- R216: an exact zero sum of finite operands is +0, or -0 under RDN, unless both operands have one sign, which it then
keeps; it is not marked inexact (R215). -/
def Obligations.ExactZeroSums : Prop :=
  ∀ (m : Rounding) (a b : Word), isFinite a = true → isFinite b = true →
    (fpVal a + fpVal b = 0 →
      (fpAdd m a b).bits = signedZero (if fpSign a = fpSign b then fpSign a else decide (m = .rdn)) ∧
      (fpAdd m a b).inexact = false) ∧
    (fpVal a - fpVal b = 0 →
      (fpSub m a b).bits = signedZero (if fpSign a = fpSign b then decide (m = .rdn) else fpSign a) ∧
      (fpSub m a b).inexact = false)

/-- R216: what is rounded is the exact sum, difference, product or quotient of the operands, and the exact integer of a
conversion; no operand is flushed or rounded first. The integer 0 gives +0 exactly (R238, R239). -/
def Obligations.ExactResultIsRounded : Prop :=
  ∀ (m : Rounding) (a b : Word), isFinite a = true → isFinite b = true →
    (fpVal a + fpVal b ≠ 0 → ∃ sign p q, 0 < p ∧ 0 < q ∧ signedRatio sign p q = fpVal a + fpVal b ∧
      fpAdd m a b = roundFp m sign p q) ∧
    (fpVal a - fpVal b ≠ 0 → ∃ sign p q, 0 < p ∧ 0 < q ∧ signedRatio sign p q = fpVal a - fpVal b ∧
      fpSub m a b = roundFp m sign p q) ∧
    (fpVal a * fpVal b ≠ 0 → ∃ sign p q, 0 < p ∧ 0 < q ∧ signedRatio sign p q = fpVal a * fpVal b ∧
      fpMul m a b = roundFp m sign p q) ∧
    (fpVal a ≠ 0 → fpVal b ≠ 0 → ∃ sign p q, 0 < p ∧ 0 < q ∧ signedRatio sign p q = fpVal a / fpVal b ∧
      fpDiv m a b = roundFp m sign p q) ∧
    (∀ x : Int, x ≠ 0 → ∃ sign p q, 0 < p ∧ 0 < q ∧ signedRatio sign p q = x ∧ intToFp m x = roundFp m sign p q) ∧
    (intToFp m 0).bits = 0 ∧ (intToFp m 0).inexact = false

/-- R212, R216: rounding toward zero, down and up deliver the nearest single-precision number on the side that the mode
names, the largest finite number or an infinity where there is none, with the sign of the exact result, also where that
rounds to a zero (D15). -/
def Obligations.DirectedRounding : Prop :=
  ∀ (m : Rounding) (sign : Bool) (p q : Nat), 0 < p → 0 < q → m = .rtz ∨ m = .rdn ∨ m = .rup →
    RoundsTo m (signedRatio sign p q) (roundFp m sign p q).bits ∧ fpSign (roundFp m sign p q).bits = sign

/-- R212, R216: rounding to nearest delivers a nearest single-precision number, in a tie the even one or the one of larger
magnitude, and an infinity from half a unit above the largest finite number on, with the sign of the exact result, also
where that rounds to a zero (D15). -/
def Obligations.NearestRounding : Prop :=
  ∀ (m : Rounding) (sign : Bool) (p q : Nat), 0 < p → 0 < q → m = .rne ∨ m = .rmm →
    RoundsTo m (signedRatio sign p q) (roundFp m sign p q).bits ∧ fpSign (roundFp m sign p q).bits = sign

/-- R215: a result is marked inexact exactly where the delivered value differs from the exact one. -/
def Obligations.InexactMeansChanged : Prop :=
  ∀ (m : Rounding) (sign : Bool) (p q : Nat), 0 < p → 0 < q →
    ((roundFp m sign p q).inexact = false ↔
      isFinite (roundFp m sign p q).bits = true ∧ fpVal (roundFp m sign p q).bits = signedRatio sign p q)

/-- R226: the square root of a positive finite number is rounded down under RTZ and RDN, up under RUP (D18). R215: in
every mode it is marked inexact exactly where its square is not the operand. -/
def Obligations.SquareRootDirected : Prop :=
  ∀ a : Word, isFinite a = true → isZero a = false → fpSign a = false →
    (∀ m, m = .rtz ∨ m = .rdn → isFinite (fpSqrt m a).bits = true ∧ 0 ≤ fpVal (fpSqrt m a).bits ∧
      fpVal (fpSqrt m a).bits ^ 2 ≤ fpVal a ∧
      ∀ w, isFinite w = true → 0 ≤ fpVal w → fpVal w ^ 2 ≤ fpVal a → fpVal w ≤ fpVal (fpSqrt m a).bits) ∧
    (isFinite (fpSqrt .rup a).bits = true ∧ 0 ≤ fpVal (fpSqrt .rup a).bits ∧
      fpVal a ≤ fpVal (fpSqrt .rup a).bits ^ 2 ∧
      ∀ w, isFinite w = true → 0 ≤ fpVal w → fpVal a ≤ fpVal w ^ 2 → fpVal (fpSqrt .rup a).bits ≤ fpVal w) ∧
    ∀ m, (fpSqrt m a).inexact = false ↔ fpVal (fpSqrt m a).bits ^ 2 = fpVal a

/-- R226: under RNE and RMM the square root is a single-precision number nearest to the real square root (D18). -/
def Obligations.SquareRootNearest : Prop :=
  ∀ (m : Rounding) (a w : Word), m = .rne ∨ m = .rmm → isFinite a = true → isZero a = false → fpSign a = false →
    isFinite w = true → isFinite (fpSqrt m a).bits = true ∧
    |(fpVal (fpSqrt m a).bits : ℝ) - Real.sqrt (fpVal a : ℝ)| ≤ |(fpVal w : ℝ) - Real.sqrt (fpVal a : ℝ)|

/-- R236, R237: the integer a conversion rounds a finite number to, mode by mode. -/
def Obligations.RoundToIntModes : Prop :=
  ∀ a : Word, isFinite a = true →
    roundToInt .rdn a = ⌊fpVal a⌋ ∧ roundToInt .rup a = ⌈fpVal a⌉ ∧
    roundToInt .rtz a = (if 0 ≤ fpVal a then ⌊fpVal a⌋ else ⌈fpVal a⌉) ∧
    (|(roundToInt .rne a : ℚ) - fpVal a| ≤ 1 / 2 ∧
      (|(roundToInt .rne a : ℚ) - fpVal a| = 1 / 2 → 2 ∣ roundToInt .rne a)) ∧
    (|(roundToInt .rmm a : ℚ) - fpVal a| ≤ 1 / 2 ∧
      (|(roundToInt .rmm a : ℚ) - fpVal a| = 1 / 2 → |fpVal a| < |(roundToInt .rmm a : ℚ)|))

/-- R236, R237 (D18): the integer delivered, and the flag: the rounded value where it fits, the nearer end of the range
where it does not, the greatest number for a Nan. -/
def Obligations.FloatToIntResult : Prop :=
  ∀ (m : Rounding) (a : Word),
    ((isNan a = true ∨ (isInf a = true ∧ fpSign a = false) ∨ (isFinite a = true ∧ 2 ^ 31 - 1 < roundToInt m a)) →
      fpToInt signedRange m a = { value := 0x7FFFFFFF, nv := true, nx := false }) ∧
    (((isInf a = true ∧ fpSign a = true) ∨ (isFinite a = true ∧ roundToInt m a < -2 ^ 31)) →
      fpToInt signedRange m a = { value := 0x80000000, nv := true, nx := false }) ∧
    ((isFinite a = true ∧ -2 ^ 31 ≤ roundToInt m a ∧ roundToInt m a ≤ 2 ^ 31 - 1) →
      (fpToInt signedRange m a).value.toInt = roundToInt m a ∧ (fpToInt signedRange m a).nv = false ∧
      ((fpToInt signedRange m a).nx = true ↔ (roundToInt m a : ℚ) ≠ fpVal a)) ∧
    ((isNan a = true ∨ (isInf a = true ∧ fpSign a = false) ∨ (isFinite a = true ∧ 2 ^ 32 - 1 < roundToInt m a)) →
      fpToInt unsignedRange m a = { value := 0xFFFFFFFF, nv := true, nx := false }) ∧
    (((isInf a = true ∧ fpSign a = true) ∨ (isFinite a = true ∧ roundToInt m a < 0)) →
      fpToInt unsignedRange m a = { value := 0, nv := true, nx := false }) ∧
    ((isFinite a = true ∧ 0 ≤ roundToInt m a ∧ roundToInt m a ≤ 2 ^ 32 - 1) →
      ((fpToInt unsignedRange m a).value.toNat : Int) = roundToInt m a ∧ (fpToInt unsignedRange m a).nv = false ∧
      ((fpToInt unsignedRange m a).nx = true ↔ (roundToInt m a : ℚ) ≠ fpVal a))

/-- R227 to R232, R242, R224, R225: the floating-point moves complete, set no flag and leave everything else alone. -/
def Obligations.FloatMoveForms : Prop :=
  ∀ (s : State) (frd frs1 frs2 : FReg) (rs1 : XReg) (a b : Word), a = s.fp frs1 → b = s.fp frs2 →
    CompletesFp (.fsgnj frd frs1 frs2) s frd (b.extractLsb' 31 1 ++ a.extractLsb' 0 31) {} ∧
    CompletesFp (.fsgnjn frd frs1 frs2) s frd (~~~b.extractLsb' 31 1 ++ a.extractLsb' 0 31) {} ∧
    CompletesFp (.fsgnjx frd frs1 frs2) s frd ((a.extractLsb' 31 1 ^^^ b.extractLsb' 31 1) ++ a.extractLsb' 0 31) {} ∧
    CompletesFp (.fmov frd frs1) s frd a {} ∧
    CompletesFp (.fneg frd frs1) s frd (~~~a.extractLsb' 31 1 ++ a.extractLsb' 0 31) {} ∧
    CompletesFp (.fabs frd frs1) s frd (0#1 ++ a.extractLsb' 0 31) {} ∧
    CompletesFp (.fmvSX frd rs1) s frd (s.x rs1) {} ∧
    CompletesFp (.fmin frd frs1 frs2) s frd (fpMin a b) {} ∧
    CompletesFp (.fmax frd frs1 frs2) s frd (fpMax a b) {}

/-- R224, R225 (D18): the minimum and maximum of two numbers, with -0 below +0; one Nan is passed over, two give the
canonical Nan. -/
def Obligations.MinMaxMeaning : Prop :=
  ∀ a b : Word,
    (isNan a = true → isNan b = true → fpMin a b = 0x7FC00000 ∧ fpMax a b = 0x7FC00000) ∧
    (isNan a = true → isNan b = false → fpMin a b = b ∧ fpMax a b = b) ∧
    (isNan a = false → isNan b = true → fpMin a b = a ∧ fpMax a b = a) ∧
    (isNan a = false → isNan b = false →
      ((fpMin a b = a ∧ fpMax a b = b) ∨ (fpMin a b = b ∧ fpMax a b = a)) ∧
      fpInt (fpMin a b) ≤ fpInt (fpMax a b) ∧
      (isZero a = true → isZero b = true → fpSign a ≠ fpSign b →
        fpMin a b = 0x80000000 ∧ fpMax a b = 0))

/-- R233 to R235, R240, R241: the compares, FMV.X.S and FCLASS write an integer register and set no flag. -/
def Obligations.FloatToIntegerForms : Prop :=
  ∀ (s : State) (rd : XReg) (frs1 frs2 : FReg) (a b : Word), a = s.fp frs1 → b = s.fp frs2 →
    CompletesX (.feq rd frs1 frs2) s rd
      (if isNan a = false ∧ isNan b = false ∧ fpInt a = fpInt b then 1 else 0) {} (s.pc + 4) ∧
    CompletesX (.flt rd frs1 frs2) s rd
      (if isNan a = false ∧ isNan b = false ∧ fpInt a < fpInt b then 1 else 0) {} (s.pc + 4) ∧
    CompletesX (.fle rd frs1 frs2) s rd
      (if isNan a = false ∧ isNan b = false ∧ fpInt a ≤ fpInt b then 1 else 0) {} (s.pc + 4) ∧
    CompletesX (.fmvXS rd frs1) s rd a {} (s.pc + 4) ∧
    CompletesX (.fclass rd frs1) s rd (1#32 <<< fpClass a) {} (s.pc + 4)

/-- R210, R233 to R235: the order that compares, FMIN and FMAX use: a finite number's value in units of 2^-149, the same
for both zeros, strictly between the infinities, and given by R210's formulas. -/
def Obligations.CompareOrder : Prop :=
  (∀ w, isFinite w = true → fpInt 0xFF800000 < fpInt w ∧ fpInt w < fpInt 0x7F800000) ∧
  (∀ w v, isNan w = false → isNan v = false → fpInt w = fpInt v → w = v ∨ (isZero w = true ∧ isZero v = true)) ∧
  (∀ w, fpExp w = 0 → fpVal w = (if fpSign w then -1 else 1) * ((fpFrac w).toNat : ℚ) * 2 ^ (-149 : ℤ)) ∧
  (∀ w, fpExp w ≠ 0 → isFinite w = true →
    fpVal w = (if fpSign w then -1 else 1) * ((2 ^ 23 + (fpFrac w).toNat : ℕ) : ℚ) *
      2 ^ (((fpExp w).toNat : ℤ) - 150))

/-- R241 (D18): the ten classes, each by the bits that make it. -/
def Obligations.ClassBits : Prop :=
  ∀ a : Word,
    (fpClass a = 0 ↔ a = 0xFF800000) ∧ (fpClass a = 7 ↔ a = 0x7F800000) ∧
    (fpClass a = 3 ↔ a = 0x80000000) ∧ (fpClass a = 4 ↔ a = 0) ∧
    (fpClass a = 1 ↔ fpSign a = true ∧ fpExp a ≠ 0 ∧ fpExp a ≠ 255) ∧
    (fpClass a = 6 ↔ fpSign a = false ∧ fpExp a ≠ 0 ∧ fpExp a ≠ 255) ∧
    (fpClass a = 2 ↔ fpSign a = true ∧ fpExp a = 0 ∧ fpFrac a ≠ 0) ∧
    (fpClass a = 5 ↔ fpSign a = false ∧ fpExp a = 0 ∧ fpFrac a ≠ 0) ∧
    (fpClass a = 8 ↔ fpExp a = 255 ∧ fpFrac a ≠ 0 ∧ a.getLsbD 22 = false) ∧
    (fpClass a = 9 ↔ fpExp a = 255 ∧ fpFrac a ≠ 0 ∧ a.getLsbD 22 = true)

/-- R33: no step clears a bit of the floating-point status register. R32, R35 (D22, log 25): no step writes the rounding
mode register or a system argument register. -/
def Obligations.FlagsAccumulateFrmAndSargKept : Prop :=
  ∀ s t : State, step s = .next t → t.frm = s.frm ∧ t.sarg = s.sarg ∧
    (s.fflags.nv = true → t.fflags.nv = true) ∧ (s.fflags.dz = true → t.fflags.dz = true) ∧
    (s.fflags.of = true → t.fflags.of = true) ∧ (s.fflags.uf = true → t.fflags.uf = true) ∧
    (s.fflags.nx = true → t.fflags.nx = true)

/-! ## Machine mode (spec/44_machine_mode.md, spec/60_exceptions.md) -/

/-- R260, R261, R284: ECALL and EBREAK in user mode enter machine mode, saving the address after them and the interrupt
mask. R262, R285: ERET in machine mode enters user mode, leaving pcM at the address after it and restoring the interrupt
mask; `pie` keeps its value (log 32). None changes anything else. -/
def Obligations.TrapEntryAndReturn : Prop :=
  ∀ s : State,
    (s.mode = .user →
      exec .ecall s = .next { s with pcU := s.pcU + 4, pie := s.ie, ie := false, mode := .machine } ∧
      exec .ebreak s = .next { s with pcU := s.pcU + 4, pie := s.ie, ie := false, mode := .machine }) ∧
    (s.mode = .machine → exec .eret s = .next { s with pcM := s.pcM + 4, ie := s.pie, mode := .user })

/-- R263: PFI goes on where no interrupt is present, in either mode; in user mode a present interrupt is taken whatever
`ie` is, resuming after the PFI. -/
def Obligations.PollForInterrupt : Prop :=
  ∀ s : State,
    (s.irqs.headD false = false → CompletesPc .pfi s (s.pc + 4)) ∧
    (s.irqs.headD false = true → s.mode = .user →
      exec .pfi s = .next { s with pcU := s.pcU + 4, pie := s.ie, ie := false, mode := .machine })

/-- R264: WFI goes on where an interrupt is present and not to be taken, takes it in user mode with interrupts enabled,
and pauses the core, changing nothing else, where none is present. -/
def Obligations.WaitForInterruptForms : Prop :=
  ∀ s : State, s.waiting = false →
    (s.irqs.headD false = true → ¬ (s.mode = .user ∧ s.ie = true) → CompletesPc .wfi s (s.pc + 4)) ∧
    (s.irqs.headD false = true → s.mode = .user → s.ie = true →
      exec .wfi s = .next { s with pcU := s.pcU + 4, pie := s.ie, ie := false, mode := .machine }) ∧
    (s.irqs.headD false = false → exec .wfi s = .next { s with waiting := true })

/-- R38, R264, R295: while the core waits and no interrupt is present, a step changes `time` (and the model's own
inputs) and nothing else; an interrupt ends the wait, the WFI retires, and it is taken exactly in user mode with interrupts
enabled, resuming after the WFI. -/
def Obligations.WaitingSteps : Prop :=
  ∀ s : State, s.waiting = true →
    (s.irqs.headD false = false → ∃ t, step s = .next { s with
      time := t, irqs := s.irqs.tail, draws := s.draws + 1 }) ∧
    (s.irqs.headD false = true → ∃ t, step s = .next t ∧ t.waiting = false ∧ t.instret = s.instret + 1 ∧
      (s.mode = .user → s.ie = true →
        t.mode = .machine ∧ t.pcU = s.pcU + 4 ∧ t.pcM = s.pcM ∧ t.pie = true ∧ t.ie = false) ∧
      (¬ (s.mode = .user ∧ s.ie = true) →
        t.mode = s.mode ∧ t.pc = s.pc + 4 ∧ t.pie = s.pie ∧ t.ie = s.ie) ∧
      t.xU = s.xU ∧ t.xM = s.xM ∧ t.f = s.f ∧ t.mem = s.mem)

/-- R283, R284, R272: between instructions, in user mode with interrupts enabled and present, a step enters machine mode
instead of fetching: the instruction at pcU is not executed, pcU keeps its address, nothing retires. -/
def Obligations.InterruptIsTaken : Prop :=
  ∀ s : State, s.waiting = false → s.mode = .user → s.ie = true → s.irqs.headD false = true →
    ∃ t, step s = .next { s with
      pie := true, ie := false, mode := .machine, time := t, irqs := s.irqs.tail, draws := s.draws + 1 }

/-- Log 16 (D10, R286): ECALL, EBREAK and an interrupt-taking PFI in machine mode, and ERET in user mode, are refused. -/
def Obligations.WrongModeRefused : Prop :=
  ∀ s : State,
    (s.mode = .machine → exec .ecall s = .refused .trapInMachineMode ∧ exec .ebreak s = .refused .trapInMachineMode ∧
      (s.irqs.headD false = true → exec .pfi s = .refused .trapInMachineMode)) ∧
    (s.mode = .user → exec .eret s = .refused .eretInUserMode)

/-- R284, R285: an environment call and the ERET that returns from it give back the user context: the user registers, the
interrupt mask, and the address after the call. -/
def Obligations.CallAndReturn : Prop :=
  ∀ s : State, s.mode = .user →
    ∃ t, exec .ecall s = .next t ∧ t.pc = s.pcM ∧ (∀ r, t.x r = s.xM.read r) ∧
      exec .eret t = .next { s with pcU := s.pcU + 4, pcM := s.pcM + 4, pie := s.ie }

/-- R29: the mode is machine after reset; it changes from user to machine only by a trap entry (an interrupt between
instructions or ending a wait, ECALL, EBREAK, PFI with an interrupt present), which leaves in pcU the address of R280
(D8, log 14; the end of a wait is D36, log 34), and from machine to user only by ERET; no CSR shows it. -/
def Obligations.ModeChanges : Prop :=
  State.reset.mode = .machine ∧ (∀ mem d, (State.init mem d).mode = .machine) ∧
  (∀ s t : State, step s = .next t → s.mode = .user → t.mode = .machine →
    (s.waiting = false ∧ s.ie = true ∧ s.irqs.headD false = true ∧ t.pcU = s.pcU) ∨
    (s.waiting = true ∧ s.ie = true ∧ s.irqs.headD false = true ∧ t.pcU = s.pcU + 4) ∨
    (t.pcU = s.pcU + 4 ∧ (Executes s .ecall ∨ Executes s .ebreak ∨
      (Executes s .pfi ∧ s.irqs.headD false = true)))) ∧
  (∀ s t : State, step s = .next t → s.mode = .machine → t.mode = .user → Executes s .eret) ∧
  (∀ (s : State) (m : Mode) (n : BitVec 12), State.csr { s with mode := m } n = s.csr n)

/-- R265 to R270: the counter reads, in either mode; RDINSTRET and RDINSTRETH read the count before themselves. -/
def Obligations.CounterReads : Prop :=
  ∀ (s : State) (rd : XReg),
    CompletesX (.rdcycle rd) s rd (BitVec.ofNat 32 s.cycle.toNat) {} (s.pc + 4) ∧
    CompletesX (.rdcycleh rd) s rd (BitVec.ofNat 32 (s.cycle.toNat / 2 ^ 32)) {} (s.pc + 4) ∧
    CompletesX (.rdtime rd) s rd (BitVec.ofNat 32 s.time.toNat) {} (s.pc + 4) ∧
    CompletesX (.rdtimeh rd) s rd (BitVec.ofNat 32 (s.time.toNat / 2 ^ 32)) {} (s.pc + 4) ∧
    CompletesX (.rdinstret rd) s rd (BitVec.ofNat 32 s.instret.toNat) {} (s.pc + 4) ∧
    CompletesX (.rdinstreth rd) s rd (BitVec.ofNat 32 (s.instret.toNat / 2 ^ 32)) {} (s.pc + 4)

/-- R36, R102: the twelve-bit code of a counter read is the number of the CSR it reads, the system argument registers have
the numbers 0x800 to 0x807, and no other number names a register. -/
def Obligations.CsrNumbers : Prop :=
  ∀ (s : State) (rd : XReg),
    (∀ i, i = .rdcycle rd ∨ i = .rdcycleh rd ∨ i = .rdtime rd ∨ i = .rdtimeh rd ∨ i = .rdinstret rd ∨
      i = .rdinstreth rd →
      ∃ v, s.csr ((encode i).extractLsb' 20 12) = some v ∧ CompletesX i s rd v {} (s.pc + 4)) ∧
    (∀ k : Fin 8, s.csr (BitVec.ofNat 12 (0x800 + k)) = some s.sarg[k]) ∧
    (∀ n : BitVec 12, s.csr n ≠ none ↔
      n ∈ [0xC00#12, 0xC80#12, 0xC01#12, 0xC81#12, 0xC02#12, 0xC82#12] ∨ (0x800 ≤ n.toNat ∧ n.toNat ≤ 0x807))

/-- R272: `instret` rises by one in a step that completes an instruction, also a WFI whose wait ends, and stands still
where an interrupt is taken between instructions or a WFI waits. -/
def Obligations.RetiredCount : Prop :=
  ∀ s t : State, step s = .next t →
    t.instret = if (s.waiting = false ∧ s.interruptReady = true) ∨ t.waiting = true then s.instret else s.instret + 1

/-- R23, R290: a step changes no integer register of the bank that is not current when it begins; and what it does in user
mode does not depend on the machine-mode registers and program counter, nor what it does in machine mode on the user-mode
ones. -/
def Obligations.OtherContextIsolated : Prop :=
  (∀ s t : State, step s = .next t →
    (s.mode = .user → t.xM = s.xM) ∧ (s.mode = .machine → t.xU = s.xU)) ∧
  ∀ (s : State) (rf : RegFile) (a : Word),
    (s.mode = .user →
      step { s with xM := rf, pcM := a } = mapNext (fun t => { t with xM := rf, pcM := a }) (step s)) ∧
    (s.mode = .machine →
      step { s with xU := rf, pcU := a } = mapNext (fun t => { t with xU := rf, pcU := a }) (step s))

/-! ## Reset and the invariant (spec/70_reset_and_hazards.md) -/

/-- R320, R321 (D29): after reset, with any rom image and any assignment of the undefined state, the first instruction
executed is the one whose word the image holds at 0xFFFC0100, in machine mode with interrupts disabled. -/
def Obligations.FirstInstructionAfterReset : Prop :=
  ∀ (mem : Memory) (d : Drawn) (i : Instr), i.wellFormed = true →
    (∀ k < 4, Memory.read mem (0xFFFC0100 + k) = some ((encode i).extractLsb' (8 * k) 8)) →
    (State.init mem d).mode = .machine ∧ (State.init mem d).ie = false ∧
    (State.init mem d).pc = 0xFFFC0100 ∧
    step (State.init mem d) = mapNext finishInstr (exec i (State.init mem d))

/-- The invariant holds right after reset (log 1: the values of Drawn.zero are the model's choice), and for every image in
canonical form and every drawn user program counter that is a multiple of 4. -/
def Obligations.InvAtReset : Prop :=
  State.Inv State.reset ∧ ∀ mem d, Memory.wf mem → Aligned d.pcU → State.Inv (State.init mem d)

/-- R27, R67, R286: every step keeps memory canonical, interrupts disabled in machine mode, and both program counters
multiples of 4. -/
def Obligations.StepKeepsInv : Prop :=
  ∀ s t : State, State.Inv s → step s = .next t → State.Inv t

/-! ## The parameters of memory (spec/20_memory.md) -/

/-- R69, R70 (D26, U7): what an access does on every platform, by the classes that MEMORY_MAP gives its bytes: ram and
rom are read without effect; a device is answered by the platform oracle, a free value (log 37), and sees the access;
vacant addresses and stores to rom are refused. R68 (D28): an access is one bus cycle where its address is a multiple of
its size, and otherwise two, the first over the `f` bytes below the next multiple (log 42). R64: a device sees no bit of
the register above those stored. R76: a fetch reads the current memory, or, where IFETCH_COHERENT is false, refuses a
byte the hart has stored to, whatever its class (log 19). -/
def Obligations.MemoryParameters : Prop :=
  (∀ (p : Platform) (s : State) (a : Word) (n f : Nat), n = 1 ∨ n = 2 ∨ n = 4 →
    f = (if a.toNat % n = 0 then n else n - a.toNat % n) →
    (∀ bs : List Byte, bs.length = n →
      (∀ k (h : k < bs.length),
        (p.region (a + BitVec.ofNat 32 k) = .ram ∨ p.region (a + BitVec.ofNat 32 k) = .rom) ∧
        s.mem.read (a + BitVec.ofNat 32 k).toNat = some bs[k]) →
      memReadOn p s a n = .next (wordOfBytes bs) ∧ s.afterReadOn p a n = s) ∧
    (∀ d, (∀ k < n, p.region (a + BitVec.ofNat 32 k) = .device) →
      d = (if f < n then [.read (a + BitVec.ofNat 32 f) (n - f)] else []) ++ .read a f :: s.devices →
      (∃ bs : List Byte, bs.length = n ∧ memReadOn p s a n = .next (wordOfBytes bs) ∧
        ∀ k (h : k < bs.length),
          bs[k] = Config.deviceByte (if k < f then .read a f :: s.devices else d) s.draws (a + BitVec.ofNat 32 k)) ∧
      s.afterReadOn p a n = { s with devices := d }) ∧
    (∀ k < n, p.region (a + BitVec.ofNat 32 k) = .vacant →
      (∀ j < k, p.region (a + BitVec.ofNat 32 j) = .device ∨
        ((p.region (a + BitVec.ofNat 32 j) = .ram ∨ p.region (a + BitVec.ofNat 32 j) = .rom) ∧
          s.mem.read (a + BitVec.ofNat 32 j).toNat ≠ none)) →
      memReadOn p s a n = .refused (.vacantAddress (a + BitVec.ofNat 32 k))) ∧
    (∀ v, ∀ k < n,
      (∀ j < k, p.region (a + BitVec.ofNat 32 j) = .ram ∨ p.region (a + BitVec.ofNat 32 j) = .device) →
      (p.region (a + BitVec.ofNat 32 k) = .rom →
        memWriteOn p s a n v = .refused (.storeToRom (a + BitVec.ofNat 32 k))) ∧
      (p.region (a + BitVec.ofNat 32 k) = .vacant →
        memWriteOn p s a n v = .refused (.vacantAddress (a + BitVec.ofNat 32 k)))) ∧
    (∀ (v : Word) (bs : List Byte), bs = (List.range n).map (fun k => v.extractLsb' (8 * k) 8) →
      (∀ k < n, p.region (a + BitVec.ofNat 32 k) = .ram ∨ p.region (a + BitVec.ofNat 32 k) = .device) →
      ∃ t, memWriteOn p s a n v = .next t ∧
        (∀ k < n, p.region (a + BitVec.ofNat 32 k) = .ram →
          t.mem.read (a + BitVec.ofNat 32 k).toNat = some (v.extractLsb' (8 * k) 8)) ∧
        (∀ c : Word, (∀ k < n, c = a + BitVec.ofNat 32 k → p.region c = .device) →
          t.mem.read c.toNat = s.mem.read c.toNat) ∧
        ((∀ k < n, p.region (a + BitVec.ofNat 32 k) = .device) → t.mem = s.mem) ∧
        t = { s with
          mem := t.mem
          stored := t.stored
          devices := (if ∃ k < n, f ≤ k ∧ p.region (a + BitVec.ofNat 32 k) = .device
              then [.write (a + BitVec.ofNat 32 f) (bs.drop f)] else []) ++
            (if ∃ k < f, p.region (a + BitVec.ofNat 32 k) = .device then [.write a (bs.take f)] else []) ++
            s.devices } ∧
        (p.ifetchCoherent = true → t.stored = s.stored) ∧
        (p.ifetchCoherent = false → ∀ c, c ∈ t.stored ↔ c ∈ s.stored ∨ ∃ k < n, c = a + BitVec.ofNat 32 k))) ∧
  ∀ (p : Platform) (s : State), Aligned s.pc →
    (p.ifetchCoherent = true → fetchOn p s = memReadOn p s s.pc 4) ∧
    (p.ifetchCoherent = false → (∀ k < 4, s.pc + BitVec.ofNat 32 k ∉ s.stored) →
      fetchOn p s = memReadOn p s s.pc 4) ∧
    (p.ifetchCoherent = false → ∀ k < 4, s.pc + BitVec.ofNat 32 k ∈ s.stored →
      (∀ j < k, s.pc + BitVec.ofNat 32 j ∉ s.stored) →
      fetchOn p s = .refused (.fetchOfStoredByte (s.pc + BitVec.ofNat 32 k)))
end

