-- ==== Sys2Proof/Laws/Encoding.lean ====
section
/-! SUPPORT. What the fields of an encoded word read, format by format (spec/30_encoding.md R93 to R102). -/

namespace Sys2Proof

/-- Bits that lie in the low part of a concatenation. -/
theorem extract_append_low {n m : Nat} (x : BitVec n) (y : BitVec m) (s l : Nat) (h : s + l ≤ m) :
    (x ++ y).extractLsb' s l = y.extractLsb' s l := by
  apply BitVec.eq_of_getLsbD_eq
  intro i hi
  simp only [BitVec.getLsbD_extractLsb', BitVec.getLsbD_append, hi, decide_true, Bool.true_and]
  rw [if_pos (by omega)]

/-- Bits that lie in the high part of a concatenation. -/
theorem extract_append_high {n m : Nat} (x : BitVec n) (y : BitVec m) (s l : Nat) (h : m ≤ s) :
    (x ++ y).extractLsb' s l = x.extractLsb' (s - m) l := by
  apply BitVec.eq_of_getLsbD_eq
  intro i hi
  simp only [BitVec.getLsbD_extractLsb', BitVec.getLsbD_append, hi, decide_true, Bool.true_and]
  rw [if_neg (by omega)]
  congr 1
  omega

/-- All the bits of a field. -/
theorem extract_all {n : Nat} (x : BitVec n) : x.extractLsb' 0 n = x := by
  apply BitVec.eq_of_getLsbD_eq
  intro i hi
  simp [hi]

/-! ### Fields -/

theorem opcode_encodeU (imm : BitVec 20) (rd : BitVec 5) (op : BitVec 7) : opcodeOf (encodeU imm rd op) = op :=
  (extract_append_low _ op _ 7 (by omega)).trans (extract_all _)
theorem rd_encodeU (imm : BitVec 20) (rd : BitVec 5) (op : BitVec 7) : rdOf (encodeU imm rd op) = rd :=
  (extract_append_high _ op _ 5 (by omega)).trans
    ((extract_append_low _ rd _ 5 (by omega)).trans (extract_all _))
theorem immU_encodeU (imm : BitVec 20) (rd : BitVec 5) (op : BitVec 7) : immUOf (encodeU imm rd op) = imm :=
  (extract_append_high _ op _ 20 (by omega)).trans
    ((extract_append_high _ rd _ 20 (by omega)).trans
    (extract_all _))
theorem opcode_encodeJ (off : BitVec 20) (rd : BitVec 5) : opcodeOf (encodeJ off rd) = 111#7 :=
  (extract_append_low _ 111#7 _ 7 (by omega)).trans (extract_all _)
theorem rd_encodeJ (off : BitVec 20) (rd : BitVec 5) : rdOf (encodeJ off rd) = rd :=
  (extract_append_high _ 111#7 _ 5 (by omega)).trans
    ((extract_append_low _ rd _ 5 (by omega)).trans (extract_all _))
theorem opcode_encodeI (imm : BitVec 12) (rs1 : BitVec 5) (f3 : BitVec 3) (rd : BitVec 5) (op : BitVec 7) : opcodeOf (encodeI imm rs1 f3 rd op) = op :=
  (extract_append_low _ op _ 7 (by omega)).trans (extract_all _)
theorem rd_encodeI (imm : BitVec 12) (rs1 : BitVec 5) (f3 : BitVec 3) (rd : BitVec 5) (op : BitVec 7) : rdOf (encodeI imm rs1 f3 rd op) = rd :=
  (extract_append_high _ op _ 5 (by omega)).trans
    ((extract_append_low _ rd _ 5 (by omega)).trans (extract_all _))
theorem funct3_encodeI (imm : BitVec 12) (rs1 : BitVec 5) (f3 : BitVec 3) (rd : BitVec 5) (op : BitVec 7) : funct3Of (encodeI imm rs1 f3 rd op) = f3 :=
  (extract_append_high _ op _ 3 (by omega)).trans
    ((extract_append_high _ rd _ 3 (by omega)).trans
    ((extract_append_low _ f3 _ 3 (by omega)).trans (extract_all _)))
theorem rs1_encodeI (imm : BitVec 12) (rs1 : BitVec 5) (f3 : BitVec 3) (rd : BitVec 5) (op : BitVec 7) : rs1Of (encodeI imm rs1 f3 rd op) = rs1 :=
  (extract_append_high _ op _ 5 (by omega)).trans
    ((extract_append_high _ rd _ 5 (by omega)).trans
    ((extract_append_high _ f3 _ 5 (by omega)).trans
    ((extract_append_low _ rs1 _ 5 (by omega)).trans (extract_all _))))
theorem immI_encodeI (imm : BitVec 12) (rs1 : BitVec 5) (f3 : BitVec 3) (rd : BitVec 5) (op : BitVec 7) : immIOf (encodeI imm rs1 f3 rd op) = imm :=
  (extract_append_high _ op _ 12 (by omega)).trans
    ((extract_append_high _ rd _ 12 (by omega)).trans
    ((extract_append_high _ f3 _ 12 (by omega)).trans
    ((extract_append_high _ rs1 _ 12 (by omega)).trans
    (extract_all _))))
theorem opcode_encodeR (f7 : BitVec 7) (rs2 rs1 : BitVec 5) (f3 : BitVec 3) (rd : BitVec 5) (op : BitVec 7) : opcodeOf (encodeR f7 rs2 rs1 f3 rd op) = op :=
  (extract_append_low _ op _ 7 (by omega)).trans (extract_all _)
theorem rd_encodeR (f7 : BitVec 7) (rs2 rs1 : BitVec 5) (f3 : BitVec 3) (rd : BitVec 5) (op : BitVec 7) : rdOf (encodeR f7 rs2 rs1 f3 rd op) = rd :=
  (extract_append_high _ op _ 5 (by omega)).trans
    ((extract_append_low _ rd _ 5 (by omega)).trans (extract_all _))
theorem funct3_encodeR (f7 : BitVec 7) (rs2 rs1 : BitVec 5) (f3 : BitVec 3) (rd : BitVec 5) (op : BitVec 7) : funct3Of (encodeR f7 rs2 rs1 f3 rd op) = f3 :=
  (extract_append_high _ op _ 3 (by omega)).trans
    ((extract_append_high _ rd _ 3 (by omega)).trans
    ((extract_append_low _ f3 _ 3 (by omega)).trans (extract_all _)))
theorem rs1_encodeR (f7 : BitVec 7) (rs2 rs1 : BitVec 5) (f3 : BitVec 3) (rd : BitVec 5) (op : BitVec 7) : rs1Of (encodeR f7 rs2 rs1 f3 rd op) = rs1 :=
  (extract_append_high _ op _ 5 (by omega)).trans
    ((extract_append_high _ rd _ 5 (by omega)).trans
    ((extract_append_high _ f3 _ 5 (by omega)).trans
    ((extract_append_low _ rs1 _ 5 (by omega)).trans (extract_all _))))
theorem rs2_encodeR (f7 : BitVec 7) (rs2 rs1 : BitVec 5) (f3 : BitVec 3) (rd : BitVec 5) (op : BitVec 7) : rs2Of (encodeR f7 rs2 rs1 f3 rd op) = rs2 :=
  (extract_append_high _ op _ 5 (by omega)).trans
    ((extract_append_high _ rd _ 5 (by omega)).trans
    ((extract_append_high _ f3 _ 5 (by omega)).trans
    ((extract_append_high _ rs1 _ 5 (by omega)).trans
    ((extract_append_low _ rs2 _ 5 (by omega)).trans (extract_all _)))))
theorem funct7_encodeR (f7 : BitVec 7) (rs2 rs1 : BitVec 5) (f3 : BitVec 3) (rd : BitVec 5) (op : BitVec 7) : funct7Of (encodeR f7 rs2 rs1 f3 rd op) = f7 :=
  (extract_append_high _ op _ 7 (by omega)).trans
    ((extract_append_high _ rd _ 7 (by omega)).trans
    ((extract_append_high _ f3 _ 7 (by omega)).trans
    ((extract_append_high _ rs1 _ 7 (by omega)).trans
    ((extract_append_high _ rs2 _ 7 (by omega)).trans
    (extract_all _)))))
theorem opcode_encodeB (off : BitVec 12) (rs2 rs1 : BitVec 5) (f3 : BitVec 3) : opcodeOf (encodeB off rs2 rs1 f3) = 99#7 :=
  (extract_append_low _ 99#7 _ 7 (by omega)).trans (extract_all _)
theorem funct3_encodeB (off : BitVec 12) (rs2 rs1 : BitVec 5) (f3 : BitVec 3) : funct3Of (encodeB off rs2 rs1 f3) = f3 :=
  (extract_append_high _ 99#7 _ 3 (by omega)).trans
    ((extract_append_high _ (off.extractLsb' 10 1) _ 3 (by omega)).trans
    ((extract_append_high _ (off.extractLsb' 0 4) _ 3 (by omega)).trans
    ((extract_append_low _ f3 _ 3 (by omega)).trans (extract_all _))))
theorem rs1_encodeB (off : BitVec 12) (rs2 rs1 : BitVec 5) (f3 : BitVec 3) : rs1Of (encodeB off rs2 rs1 f3) = rs1 :=
  (extract_append_high _ 99#7 _ 5 (by omega)).trans
    ((extract_append_high _ (off.extractLsb' 10 1) _ 5 (by omega)).trans
    ((extract_append_high _ (off.extractLsb' 0 4) _ 5 (by omega)).trans
    ((extract_append_high _ f3 _ 5 (by omega)).trans
    ((extract_append_low _ rs1 _ 5 (by omega)).trans (extract_all _)))))
theorem rs2_encodeB (off : BitVec 12) (rs2 rs1 : BitVec 5) (f3 : BitVec 3) : rs2Of (encodeB off rs2 rs1 f3) = rs2 :=
  (extract_append_high _ 99#7 _ 5 (by omega)).trans
    ((extract_append_high _ (off.extractLsb' 10 1) _ 5 (by omega)).trans
    ((extract_append_high _ (off.extractLsb' 0 4) _ 5 (by omega)).trans
    ((extract_append_high _ f3 _ 5 (by omega)).trans
    ((extract_append_high _ rs1 _ 5 (by omega)).trans
    ((extract_append_low _ rs2 _ 5 (by omega)).trans (extract_all _))))))
theorem opcode_encodeS (imm : BitVec 12) (rs2 rs1 : BitVec 5) (f3 : BitVec 3) (op : BitVec 7) : opcodeOf (encodeS imm rs2 rs1 f3 op) = op :=
  (extract_append_low _ op _ 7 (by omega)).trans (extract_all _)
theorem funct3_encodeS (imm : BitVec 12) (rs2 rs1 : BitVec 5) (f3 : BitVec 3) (op : BitVec 7) : funct3Of (encodeS imm rs2 rs1 f3 op) = f3 :=
  (extract_append_high _ op _ 3 (by omega)).trans
    ((extract_append_high _ (imm.extractLsb' 0 5) _ 3 (by omega)).trans
    ((extract_append_low _ f3 _ 3 (by omega)).trans (extract_all _)))
theorem rs1_encodeS (imm : BitVec 12) (rs2 rs1 : BitVec 5) (f3 : BitVec 3) (op : BitVec 7) : rs1Of (encodeS imm rs2 rs1 f3 op) = rs1 :=
  (extract_append_high _ op _ 5 (by omega)).trans
    ((extract_append_high _ (imm.extractLsb' 0 5) _ 5 (by omega)).trans
    ((extract_append_high _ f3 _ 5 (by omega)).trans
    ((extract_append_low _ rs1 _ 5 (by omega)).trans (extract_all _))))
theorem rs2_encodeS (imm : BitVec 12) (rs2 rs1 : BitVec 5) (f3 : BitVec 3) (op : BitVec 7) : rs2Of (encodeS imm rs2 rs1 f3 op) = rs2 :=
  (extract_append_high _ op _ 5 (by omega)).trans
    ((extract_append_high _ (imm.extractLsb' 0 5) _ 5 (by omega)).trans
    ((extract_append_high _ f3 _ 5 (by omega)).trans
    ((extract_append_high _ rs1 _ 5 (by omega)).trans
    ((extract_append_low _ rs2 _ 5 (by omega)).trans (extract_all _)))))
theorem opcode_encodeFence (pred succ : BitVec 4) (f3 : BitVec 3) : opcodeOf (encodeFence pred succ f3) = 15#7 :=
  (extract_append_low _ 15#7 _ 7 (by omega)).trans (extract_all _)
theorem funct3_encodeFence (pred succ : BitVec 4) (f3 : BitVec 3) : funct3Of (encodeFence pred succ f3) = f3 :=
  (extract_append_high _ 15#7 _ 3 (by omega)).trans
    ((extract_append_high _ 0#5 _ 3 (by omega)).trans
    ((extract_append_low _ f3 _ 3 (by omega)).trans (extract_all _)))
theorem rd_encodeFence (pred succ : BitVec 4) (f3 : BitVec 3) : rdOf (encodeFence pred succ f3) = 0#5 :=
  (extract_append_high _ 15#7 _ 5 (by omega)).trans
    ((extract_append_low _ 0#5 _ 5 (by omega)).trans (extract_all _))
theorem rs1_encodeFence (pred succ : BitVec 4) (f3 : BitVec 3) : rs1Of (encodeFence pred succ f3) = 0#5 :=
  (extract_append_high _ 15#7 _ 5 (by omega)).trans
    ((extract_append_high _ 0#5 _ 5 (by omega)).trans
    ((extract_append_high _ f3 _ 5 (by omega)).trans
    ((extract_append_low _ 0#5 _ 5 (by omega)).trans (extract_all _))))
theorem opcode_encodeSys (code : BitVec 12) (f3 : BitVec 3) (rd : BitVec 5) : opcodeOf (encodeSys code f3 rd) = 115#7 :=
  (extract_append_low _ 115#7 _ 7 (by omega)).trans (extract_all _)
theorem rd_encodeSys (code : BitVec 12) (f3 : BitVec 3) (rd : BitVec 5) : rdOf (encodeSys code f3 rd) = rd :=
  (extract_append_high _ 115#7 _ 5 (by omega)).trans
    ((extract_append_low _ rd _ 5 (by omega)).trans (extract_all _))
theorem funct3_encodeSys (code : BitVec 12) (f3 : BitVec 3) (rd : BitVec 5) : funct3Of (encodeSys code f3 rd) = f3 :=
  (extract_append_high _ 115#7 _ 3 (by omega)).trans
    ((extract_append_high _ rd _ 3 (by omega)).trans
    ((extract_append_low _ f3 _ 3 (by omega)).trans (extract_all _)))
theorem rs1_encodeSys (code : BitVec 12) (f3 : BitVec 3) (rd : BitVec 5) : rs1Of (encodeSys code f3 rd) = 0#5 :=
  (extract_append_high _ 115#7 _ 5 (by omega)).trans
    ((extract_append_high _ rd _ 5 (by omega)).trans
    ((extract_append_high _ f3 _ 5 (by omega)).trans
    ((extract_append_low _ 0#5 _ 5 (by omega)).trans (extract_all _))))
theorem funct12_encodeSys (code : BitVec 12) (f3 : BitVec 3) (rd : BitVec 5) : funct12Of (encodeSys code f3 rd) = code :=
  (extract_append_high _ 115#7 _ 12 (by omega)).trans
    ((extract_append_high _ rd _ 12 (by omega)).trans
    ((extract_append_high _ f3 _ 12 (by omega)).trans
    ((extract_append_high _ 0#5 _ 12 (by omega)).trans
    (extract_all _))))

end Sys2Proof
end

