-- ==== Sys2Proof/Laws/State.lean ====
section
/-! SUPPORT. One lemma per field per update of the state, and what the register and program-counter accessors read after
an update, so that no proof unfolds a record update. -/

namespace Sys2Proof.Machine

/-! ### setX -/

@[simp] theorem State.setX_mode (s : State) (i : XReg) (v : Word) : (s.setX i v).mode = s.mode := by unfold State.setX; cases s.mode <;> rfl
@[simp] theorem State.setX_pcU (s : State) (i : XReg) (v : Word) : (s.setX i v).pcU = s.pcU := by unfold State.setX; cases s.mode <;> rfl
@[simp] theorem State.setX_pcM (s : State) (i : XReg) (v : Word) : (s.setX i v).pcM = s.pcM := by unfold State.setX; cases s.mode <;> rfl
@[simp] theorem State.setX_f (s : State) (i : XReg) (v : Word) : (s.setX i v).f = s.f := by unfold State.setX; cases s.mode <;> rfl
@[simp] theorem State.setX_ie (s : State) (i : XReg) (v : Word) : (s.setX i v).ie = s.ie := by unfold State.setX; cases s.mode <;> rfl
@[simp] theorem State.setX_pie (s : State) (i : XReg) (v : Word) : (s.setX i v).pie = s.pie := by unfold State.setX; cases s.mode <;> rfl
@[simp] theorem State.setX_frm (s : State) (i : XReg) (v : Word) : (s.setX i v).frm = s.frm := by unfold State.setX; cases s.mode <;> rfl
@[simp] theorem State.setX_fflags (s : State) (i : XReg) (v : Word) : (s.setX i v).fflags = s.fflags := by unfold State.setX; cases s.mode <;> rfl
@[simp] theorem State.setX_cycle (s : State) (i : XReg) (v : Word) : (s.setX i v).cycle = s.cycle := by unfold State.setX; cases s.mode <;> rfl
@[simp] theorem State.setX_time (s : State) (i : XReg) (v : Word) : (s.setX i v).time = s.time := by unfold State.setX; cases s.mode <;> rfl
@[simp] theorem State.setX_instret (s : State) (i : XReg) (v : Word) : (s.setX i v).instret = s.instret := by unfold State.setX; cases s.mode <;> rfl
@[simp] theorem State.setX_sarg (s : State) (i : XReg) (v : Word) : (s.setX i v).sarg = s.sarg := by unfold State.setX; cases s.mode <;> rfl
@[simp] theorem State.setX_waiting (s : State) (i : XReg) (v : Word) : (s.setX i v).waiting = s.waiting := by unfold State.setX; cases s.mode <;> rfl
@[simp] theorem State.setX_mem (s : State) (i : XReg) (v : Word) : (s.setX i v).mem = s.mem := by unfold State.setX; cases s.mode <;> rfl
@[simp] theorem State.setX_irqs (s : State) (i : XReg) (v : Word) : (s.setX i v).irqs = s.irqs := by unfold State.setX; cases s.mode <;> rfl
@[simp] theorem State.setX_draws (s : State) (i : XReg) (v : Word) : (s.setX i v).draws = s.draws := by unfold State.setX; cases s.mode <;> rfl
@[simp] theorem State.setX_devices (s : State) (i : XReg) (v : Word) : (s.setX i v).devices = s.devices := by unfold State.setX; cases s.mode <;> rfl
@[simp] theorem State.setX_stored (s : State) (i : XReg) (v : Word) : (s.setX i v).stored = s.stored := by unfold State.setX; cases s.mode <;> rfl

/-! ### setPc -/

@[simp] theorem State.setPc_mode (s : State) (a : Word) : (s.setPc a).mode = s.mode := by unfold State.setPc; cases s.mode <;> rfl
@[simp] theorem State.setPc_xU (s : State) (a : Word) : (s.setPc a).xU = s.xU := by unfold State.setPc; cases s.mode <;> rfl
@[simp] theorem State.setPc_xM (s : State) (a : Word) : (s.setPc a).xM = s.xM := by unfold State.setPc; cases s.mode <;> rfl
@[simp] theorem State.setPc_f (s : State) (a : Word) : (s.setPc a).f = s.f := by unfold State.setPc; cases s.mode <;> rfl
@[simp] theorem State.setPc_ie (s : State) (a : Word) : (s.setPc a).ie = s.ie := by unfold State.setPc; cases s.mode <;> rfl
@[simp] theorem State.setPc_pie (s : State) (a : Word) : (s.setPc a).pie = s.pie := by unfold State.setPc; cases s.mode <;> rfl
@[simp] theorem State.setPc_frm (s : State) (a : Word) : (s.setPc a).frm = s.frm := by unfold State.setPc; cases s.mode <;> rfl
@[simp] theorem State.setPc_fflags (s : State) (a : Word) : (s.setPc a).fflags = s.fflags := by unfold State.setPc; cases s.mode <;> rfl
@[simp] theorem State.setPc_cycle (s : State) (a : Word) : (s.setPc a).cycle = s.cycle := by unfold State.setPc; cases s.mode <;> rfl
@[simp] theorem State.setPc_time (s : State) (a : Word) : (s.setPc a).time = s.time := by unfold State.setPc; cases s.mode <;> rfl
@[simp] theorem State.setPc_instret (s : State) (a : Word) : (s.setPc a).instret = s.instret := by unfold State.setPc; cases s.mode <;> rfl
@[simp] theorem State.setPc_sarg (s : State) (a : Word) : (s.setPc a).sarg = s.sarg := by unfold State.setPc; cases s.mode <;> rfl
@[simp] theorem State.setPc_waiting (s : State) (a : Word) : (s.setPc a).waiting = s.waiting := by unfold State.setPc; cases s.mode <;> rfl
@[simp] theorem State.setPc_mem (s : State) (a : Word) : (s.setPc a).mem = s.mem := by unfold State.setPc; cases s.mode <;> rfl
@[simp] theorem State.setPc_irqs (s : State) (a : Word) : (s.setPc a).irqs = s.irqs := by unfold State.setPc; cases s.mode <;> rfl
@[simp] theorem State.setPc_draws (s : State) (a : Word) : (s.setPc a).draws = s.draws := by unfold State.setPc; cases s.mode <;> rfl
@[simp] theorem State.setPc_devices (s : State) (a : Word) : (s.setPc a).devices = s.devices := by unfold State.setPc; cases s.mode <;> rfl
@[simp] theorem State.setPc_stored (s : State) (a : Word) : (s.setPc a).stored = s.stored := by unfold State.setPc; cases s.mode <;> rfl

/-! ### advance -/

@[simp] theorem State.advance_mode (s : State) : (s.advance).mode = s.mode := State.setPc_mode _ _
@[simp] theorem State.advance_xU (s : State) : (s.advance).xU = s.xU := State.setPc_xU _ _
@[simp] theorem State.advance_xM (s : State) : (s.advance).xM = s.xM := State.setPc_xM _ _
@[simp] theorem State.advance_f (s : State) : (s.advance).f = s.f := State.setPc_f _ _
@[simp] theorem State.advance_ie (s : State) : (s.advance).ie = s.ie := State.setPc_ie _ _
@[simp] theorem State.advance_pie (s : State) : (s.advance).pie = s.pie := State.setPc_pie _ _
@[simp] theorem State.advance_frm (s : State) : (s.advance).frm = s.frm := State.setPc_frm _ _
@[simp] theorem State.advance_fflags (s : State) : (s.advance).fflags = s.fflags := State.setPc_fflags _ _
@[simp] theorem State.advance_cycle (s : State) : (s.advance).cycle = s.cycle := State.setPc_cycle _ _
@[simp] theorem State.advance_time (s : State) : (s.advance).time = s.time := State.setPc_time _ _
@[simp] theorem State.advance_instret (s : State) : (s.advance).instret = s.instret := State.setPc_instret _ _
@[simp] theorem State.advance_sarg (s : State) : (s.advance).sarg = s.sarg := State.setPc_sarg _ _
@[simp] theorem State.advance_waiting (s : State) : (s.advance).waiting = s.waiting := State.setPc_waiting _ _
@[simp] theorem State.advance_mem (s : State) : (s.advance).mem = s.mem := State.setPc_mem _ _
@[simp] theorem State.advance_irqs (s : State) : (s.advance).irqs = s.irqs := State.setPc_irqs _ _
@[simp] theorem State.advance_draws (s : State) : (s.advance).draws = s.draws := State.setPc_draws _ _
@[simp] theorem State.advance_devices (s : State) : (s.advance).devices = s.devices := State.setPc_devices _ _
@[simp] theorem State.advance_stored (s : State) : (s.advance).stored = s.stored := State.setPc_stored _ _

/-! ### setFp -/

@[simp] theorem State.setFp_mode (s : State) (i : FReg) (v : Word) : (s.setFp i v).mode = s.mode := rfl
@[simp] theorem State.setFp_xU (s : State) (i : FReg) (v : Word) : (s.setFp i v).xU = s.xU := rfl
@[simp] theorem State.setFp_xM (s : State) (i : FReg) (v : Word) : (s.setFp i v).xM = s.xM := rfl
@[simp] theorem State.setFp_pcU (s : State) (i : FReg) (v : Word) : (s.setFp i v).pcU = s.pcU := rfl
@[simp] theorem State.setFp_pcM (s : State) (i : FReg) (v : Word) : (s.setFp i v).pcM = s.pcM := rfl
@[simp] theorem State.setFp_ie (s : State) (i : FReg) (v : Word) : (s.setFp i v).ie = s.ie := rfl
@[simp] theorem State.setFp_pie (s : State) (i : FReg) (v : Word) : (s.setFp i v).pie = s.pie := rfl
@[simp] theorem State.setFp_frm (s : State) (i : FReg) (v : Word) : (s.setFp i v).frm = s.frm := rfl
@[simp] theorem State.setFp_fflags (s : State) (i : FReg) (v : Word) : (s.setFp i v).fflags = s.fflags := rfl
@[simp] theorem State.setFp_cycle (s : State) (i : FReg) (v : Word) : (s.setFp i v).cycle = s.cycle := rfl
@[simp] theorem State.setFp_time (s : State) (i : FReg) (v : Word) : (s.setFp i v).time = s.time := rfl
@[simp] theorem State.setFp_instret (s : State) (i : FReg) (v : Word) : (s.setFp i v).instret = s.instret := rfl
@[simp] theorem State.setFp_sarg (s : State) (i : FReg) (v : Word) : (s.setFp i v).sarg = s.sarg := rfl
@[simp] theorem State.setFp_waiting (s : State) (i : FReg) (v : Word) : (s.setFp i v).waiting = s.waiting := rfl
@[simp] theorem State.setFp_mem (s : State) (i : FReg) (v : Word) : (s.setFp i v).mem = s.mem := rfl
@[simp] theorem State.setFp_irqs (s : State) (i : FReg) (v : Word) : (s.setFp i v).irqs = s.irqs := rfl
@[simp] theorem State.setFp_draws (s : State) (i : FReg) (v : Word) : (s.setFp i v).draws = s.draws := rfl
@[simp] theorem State.setFp_devices (s : State) (i : FReg) (v : Word) : (s.setFp i v).devices = s.devices := rfl
@[simp] theorem State.setFp_stored (s : State) (i : FReg) (v : Word) : (s.setFp i v).stored = s.stored := rfl

/-! ### raiseFlags -/

@[simp] theorem State.raiseFlags_mode (s : State) (fl : FFlags) : (s.raiseFlags fl).mode = s.mode := rfl
@[simp] theorem State.raiseFlags_xU (s : State) (fl : FFlags) : (s.raiseFlags fl).xU = s.xU := rfl
@[simp] theorem State.raiseFlags_xM (s : State) (fl : FFlags) : (s.raiseFlags fl).xM = s.xM := rfl
@[simp] theorem State.raiseFlags_pcU (s : State) (fl : FFlags) : (s.raiseFlags fl).pcU = s.pcU := rfl
@[simp] theorem State.raiseFlags_pcM (s : State) (fl : FFlags) : (s.raiseFlags fl).pcM = s.pcM := rfl
@[simp] theorem State.raiseFlags_f (s : State) (fl : FFlags) : (s.raiseFlags fl).f = s.f := rfl
@[simp] theorem State.raiseFlags_ie (s : State) (fl : FFlags) : (s.raiseFlags fl).ie = s.ie := rfl
@[simp] theorem State.raiseFlags_pie (s : State) (fl : FFlags) : (s.raiseFlags fl).pie = s.pie := rfl
@[simp] theorem State.raiseFlags_frm (s : State) (fl : FFlags) : (s.raiseFlags fl).frm = s.frm := rfl
@[simp] theorem State.raiseFlags_cycle (s : State) (fl : FFlags) : (s.raiseFlags fl).cycle = s.cycle := rfl
@[simp] theorem State.raiseFlags_time (s : State) (fl : FFlags) : (s.raiseFlags fl).time = s.time := rfl
@[simp] theorem State.raiseFlags_instret (s : State) (fl : FFlags) : (s.raiseFlags fl).instret = s.instret := rfl
@[simp] theorem State.raiseFlags_sarg (s : State) (fl : FFlags) : (s.raiseFlags fl).sarg = s.sarg := rfl
@[simp] theorem State.raiseFlags_waiting (s : State) (fl : FFlags) : (s.raiseFlags fl).waiting = s.waiting := rfl
@[simp] theorem State.raiseFlags_mem (s : State) (fl : FFlags) : (s.raiseFlags fl).mem = s.mem := rfl
@[simp] theorem State.raiseFlags_irqs (s : State) (fl : FFlags) : (s.raiseFlags fl).irqs = s.irqs := rfl
@[simp] theorem State.raiseFlags_draws (s : State) (fl : FFlags) : (s.raiseFlags fl).draws = s.draws := rfl
@[simp] theorem State.raiseFlags_devices (s : State) (fl : FFlags) : (s.raiseFlags fl).devices = s.devices := rfl
@[simp] theorem State.raiseFlags_stored (s : State) (fl : FFlags) : (s.raiseFlags fl).stored = s.stored := rfl

/-! ### trapEnter -/

@[simp] theorem trapEnter_mode (s : State) (resume : Word) : (trapEnter resume s).mode = .machine := rfl
@[simp] theorem trapEnter_xU (s : State) (resume : Word) : (trapEnter resume s).xU = s.xU := rfl
@[simp] theorem trapEnter_xM (s : State) (resume : Word) : (trapEnter resume s).xM = s.xM := rfl
@[simp] theorem trapEnter_pcU (s : State) (resume : Word) : (trapEnter resume s).pcU = resume := rfl
@[simp] theorem trapEnter_pcM (s : State) (resume : Word) : (trapEnter resume s).pcM = s.pcM := rfl
@[simp] theorem trapEnter_f (s : State) (resume : Word) : (trapEnter resume s).f = s.f := rfl
@[simp] theorem trapEnter_ie (s : State) (resume : Word) : (trapEnter resume s).ie = false := rfl
@[simp] theorem trapEnter_pie (s : State) (resume : Word) : (trapEnter resume s).pie = s.ie := rfl
@[simp] theorem trapEnter_frm (s : State) (resume : Word) : (trapEnter resume s).frm = s.frm := rfl
@[simp] theorem trapEnter_fflags (s : State) (resume : Word) : (trapEnter resume s).fflags = s.fflags := rfl
@[simp] theorem trapEnter_cycle (s : State) (resume : Word) : (trapEnter resume s).cycle = s.cycle := rfl
@[simp] theorem trapEnter_time (s : State) (resume : Word) : (trapEnter resume s).time = s.time := rfl
@[simp] theorem trapEnter_instret (s : State) (resume : Word) : (trapEnter resume s).instret = s.instret := rfl
@[simp] theorem trapEnter_sarg (s : State) (resume : Word) : (trapEnter resume s).sarg = s.sarg := rfl
@[simp] theorem trapEnter_waiting (s : State) (resume : Word) : (trapEnter resume s).waiting = s.waiting := rfl
@[simp] theorem trapEnter_mem (s : State) (resume : Word) : (trapEnter resume s).mem = s.mem := rfl
@[simp] theorem trapEnter_irqs (s : State) (resume : Word) : (trapEnter resume s).irqs = s.irqs := rfl
@[simp] theorem trapEnter_draws (s : State) (resume : Word) : (trapEnter resume s).draws = s.draws := rfl
@[simp] theorem trapEnter_devices (s : State) (resume : Word) : (trapEnter resume s).devices = s.devices := rfl
@[simp] theorem trapEnter_stored (s : State) (resume : Word) : (trapEnter resume s).stored = s.stored := rfl

/-! ### trapReturn -/

@[simp] theorem trapReturn_mode (s : State) : (trapReturn s).mode = .user := rfl
@[simp] theorem trapReturn_xU (s : State) : (trapReturn s).xU = s.xU := rfl
@[simp] theorem trapReturn_xM (s : State) : (trapReturn s).xM = s.xM := rfl
@[simp] theorem trapReturn_pcU (s : State) : (trapReturn s).pcU = s.pcU := rfl
@[simp] theorem trapReturn_pcM (s : State) : (trapReturn s).pcM = s.pcM + 4 := rfl
@[simp] theorem trapReturn_f (s : State) : (trapReturn s).f = s.f := rfl
@[simp] theorem trapReturn_ie (s : State) : (trapReturn s).ie = s.pie := rfl
@[simp] theorem trapReturn_pie (s : State) : (trapReturn s).pie = s.pie := rfl
@[simp] theorem trapReturn_frm (s : State) : (trapReturn s).frm = s.frm := rfl
@[simp] theorem trapReturn_fflags (s : State) : (trapReturn s).fflags = s.fflags := rfl
@[simp] theorem trapReturn_cycle (s : State) : (trapReturn s).cycle = s.cycle := rfl
@[simp] theorem trapReturn_time (s : State) : (trapReturn s).time = s.time := rfl
@[simp] theorem trapReturn_instret (s : State) : (trapReturn s).instret = s.instret := rfl
@[simp] theorem trapReturn_sarg (s : State) : (trapReturn s).sarg = s.sarg := rfl
@[simp] theorem trapReturn_waiting (s : State) : (trapReturn s).waiting = s.waiting := rfl
@[simp] theorem trapReturn_mem (s : State) : (trapReturn s).mem = s.mem := rfl
@[simp] theorem trapReturn_irqs (s : State) : (trapReturn s).irqs = s.irqs := rfl
@[simp] theorem trapReturn_draws (s : State) : (trapReturn s).draws = s.draws := rfl
@[simp] theorem trapReturn_devices (s : State) : (trapReturn s).devices = s.devices := rfl
@[simp] theorem trapReturn_stored (s : State) : (trapReturn s).stored = s.stored := rfl

/-! ### retire -/

@[simp] theorem retire_mode (s : State) : (retire s).mode = s.mode := rfl
@[simp] theorem retire_xU (s : State) : (retire s).xU = s.xU := rfl
@[simp] theorem retire_xM (s : State) : (retire s).xM = s.xM := rfl
@[simp] theorem retire_pcU (s : State) : (retire s).pcU = s.pcU := rfl
@[simp] theorem retire_pcM (s : State) : (retire s).pcM = s.pcM := rfl
@[simp] theorem retire_f (s : State) : (retire s).f = s.f := rfl
@[simp] theorem retire_ie (s : State) : (retire s).ie = s.ie := rfl
@[simp] theorem retire_pie (s : State) : (retire s).pie = s.pie := rfl
@[simp] theorem retire_frm (s : State) : (retire s).frm = s.frm := rfl
@[simp] theorem retire_fflags (s : State) : (retire s).fflags = s.fflags := rfl
@[simp] theorem retire_cycle (s : State) : (retire s).cycle = s.cycle + 1 + BitVec.ofNat 64 (Config.cycleExtra s.draws) := rfl
@[simp] theorem retire_time (s : State) : (retire s).time = s.time := rfl
@[simp] theorem retire_instret (s : State) : (retire s).instret = s.instret + 1 := rfl
@[simp] theorem retire_sarg (s : State) : (retire s).sarg = s.sarg := rfl
@[simp] theorem retire_waiting (s : State) : (retire s).waiting = s.waiting := rfl
@[simp] theorem retire_mem (s : State) : (retire s).mem = s.mem := rfl
@[simp] theorem retire_irqs (s : State) : (retire s).irqs = s.irqs := rfl
@[simp] theorem retire_draws (s : State) : (retire s).draws = s.draws := rfl
@[simp] theorem retire_devices (s : State) : (retire s).devices = s.devices := rfl
@[simp] theorem retire_stored (s : State) : (retire s).stored = s.stored := rfl

/-! ### elapse -/

@[simp] theorem elapse_mode (s : State) : (elapse s).mode = s.mode := rfl
@[simp] theorem elapse_xU (s : State) : (elapse s).xU = s.xU := rfl
@[simp] theorem elapse_xM (s : State) : (elapse s).xM = s.xM := rfl
@[simp] theorem elapse_pcU (s : State) : (elapse s).pcU = s.pcU := rfl
@[simp] theorem elapse_pcM (s : State) : (elapse s).pcM = s.pcM := rfl
@[simp] theorem elapse_f (s : State) : (elapse s).f = s.f := rfl
@[simp] theorem elapse_ie (s : State) : (elapse s).ie = s.ie := rfl
@[simp] theorem elapse_pie (s : State) : (elapse s).pie = s.pie := rfl
@[simp] theorem elapse_frm (s : State) : (elapse s).frm = s.frm := rfl
@[simp] theorem elapse_fflags (s : State) : (elapse s).fflags = s.fflags := rfl
@[simp] theorem elapse_cycle (s : State) : (elapse s).cycle = s.cycle := rfl
@[simp] theorem elapse_time (s : State) : (elapse s).time = s.time + BitVec.ofNat 64 (Config.timeAdvance s.draws) := rfl
@[simp] theorem elapse_instret (s : State) : (elapse s).instret = s.instret := rfl
@[simp] theorem elapse_sarg (s : State) : (elapse s).sarg = s.sarg := rfl
@[simp] theorem elapse_waiting (s : State) : (elapse s).waiting = s.waiting := rfl
@[simp] theorem elapse_mem (s : State) : (elapse s).mem = s.mem := rfl
@[simp] theorem elapse_irqs (s : State) : (elapse s).irqs = s.irqs.tail := rfl
@[simp] theorem elapse_draws (s : State) : (elapse s).draws = s.draws + 1 := rfl
@[simp] theorem elapse_devices (s : State) : (elapse s).devices = s.devices := rfl
@[simp] theorem elapse_stored (s : State) : (elapse s).stored = s.stored := rfl

/-! ### seenBy -/

/-- What an access does to what the platform has seen. -/
theorem State.seenBy_devices (p : Platform) (acc : DeviceAccess) (a : Word) (n : Nat) (s : State) :
    (s.seenBy p acc a n).devices = if p.reachesDevice a n then acc :: s.devices else s.devices := by
  unfold State.seenBy; split <;> rfl
@[simp] theorem State.seenBy_mode (s : State) (p : Platform) (acc : DeviceAccess) (a : Word) (n : Nat) : (s.seenBy p acc a n).mode = s.mode := by unfold State.seenBy; split <;> rfl
@[simp] theorem State.seenBy_xU (s : State) (p : Platform) (acc : DeviceAccess) (a : Word) (n : Nat) : (s.seenBy p acc a n).xU = s.xU := by unfold State.seenBy; split <;> rfl
@[simp] theorem State.seenBy_xM (s : State) (p : Platform) (acc : DeviceAccess) (a : Word) (n : Nat) : (s.seenBy p acc a n).xM = s.xM := by unfold State.seenBy; split <;> rfl
@[simp] theorem State.seenBy_pcU (s : State) (p : Platform) (acc : DeviceAccess) (a : Word) (n : Nat) : (s.seenBy p acc a n).pcU = s.pcU := by unfold State.seenBy; split <;> rfl
@[simp] theorem State.seenBy_pcM (s : State) (p : Platform) (acc : DeviceAccess) (a : Word) (n : Nat) : (s.seenBy p acc a n).pcM = s.pcM := by unfold State.seenBy; split <;> rfl
@[simp] theorem State.seenBy_f (s : State) (p : Platform) (acc : DeviceAccess) (a : Word) (n : Nat) : (s.seenBy p acc a n).f = s.f := by unfold State.seenBy; split <;> rfl
@[simp] theorem State.seenBy_ie (s : State) (p : Platform) (acc : DeviceAccess) (a : Word) (n : Nat) : (s.seenBy p acc a n).ie = s.ie := by unfold State.seenBy; split <;> rfl
@[simp] theorem State.seenBy_pie (s : State) (p : Platform) (acc : DeviceAccess) (a : Word) (n : Nat) : (s.seenBy p acc a n).pie = s.pie := by unfold State.seenBy; split <;> rfl
@[simp] theorem State.seenBy_frm (s : State) (p : Platform) (acc : DeviceAccess) (a : Word) (n : Nat) : (s.seenBy p acc a n).frm = s.frm := by unfold State.seenBy; split <;> rfl
@[simp] theorem State.seenBy_fflags (s : State) (p : Platform) (acc : DeviceAccess) (a : Word) (n : Nat) : (s.seenBy p acc a n).fflags = s.fflags := by unfold State.seenBy; split <;> rfl
@[simp] theorem State.seenBy_cycle (s : State) (p : Platform) (acc : DeviceAccess) (a : Word) (n : Nat) : (s.seenBy p acc a n).cycle = s.cycle := by unfold State.seenBy; split <;> rfl
@[simp] theorem State.seenBy_time (s : State) (p : Platform) (acc : DeviceAccess) (a : Word) (n : Nat) : (s.seenBy p acc a n).time = s.time := by unfold State.seenBy; split <;> rfl
@[simp] theorem State.seenBy_instret (s : State) (p : Platform) (acc : DeviceAccess) (a : Word) (n : Nat) : (s.seenBy p acc a n).instret = s.instret := by unfold State.seenBy; split <;> rfl
@[simp] theorem State.seenBy_sarg (s : State) (p : Platform) (acc : DeviceAccess) (a : Word) (n : Nat) : (s.seenBy p acc a n).sarg = s.sarg := by unfold State.seenBy; split <;> rfl
@[simp] theorem State.seenBy_waiting (s : State) (p : Platform) (acc : DeviceAccess) (a : Word) (n : Nat) : (s.seenBy p acc a n).waiting = s.waiting := by unfold State.seenBy; split <;> rfl
@[simp] theorem State.seenBy_mem (s : State) (p : Platform) (acc : DeviceAccess) (a : Word) (n : Nat) : (s.seenBy p acc a n).mem = s.mem := by unfold State.seenBy; split <;> rfl
@[simp] theorem State.seenBy_irqs (s : State) (p : Platform) (acc : DeviceAccess) (a : Word) (n : Nat) : (s.seenBy p acc a n).irqs = s.irqs := by unfold State.seenBy; split <;> rfl
@[simp] theorem State.seenBy_draws (s : State) (p : Platform) (acc : DeviceAccess) (a : Word) (n : Nat) : (s.seenBy p acc a n).draws = s.draws := by unfold State.seenBy; split <;> rfl
@[simp] theorem State.seenBy_stored (s : State) (p : Platform) (acc : DeviceAccess) (a : Word) (n : Nat) : (s.seenBy p acc a n).stored = s.stored := by unfold State.seenBy; split <;> rfl

/-! ### afterCycleOn: a bus cycle that reads changes only what the platform has seen -/

@[simp] theorem State.afterCycleOn_mode (s : State) (p : Platform) (a : Word) (n : Nat) : (s.afterCycleOn p a n).mode = s.mode := State.seenBy_mode _ _ _ _ _
@[simp] theorem State.afterCycleOn_xU (s : State) (p : Platform) (a : Word) (n : Nat) : (s.afterCycleOn p a n).xU = s.xU := State.seenBy_xU _ _ _ _ _
@[simp] theorem State.afterCycleOn_xM (s : State) (p : Platform) (a : Word) (n : Nat) : (s.afterCycleOn p a n).xM = s.xM := State.seenBy_xM _ _ _ _ _
@[simp] theorem State.afterCycleOn_pcU (s : State) (p : Platform) (a : Word) (n : Nat) : (s.afterCycleOn p a n).pcU = s.pcU := State.seenBy_pcU _ _ _ _ _
@[simp] theorem State.afterCycleOn_pcM (s : State) (p : Platform) (a : Word) (n : Nat) : (s.afterCycleOn p a n).pcM = s.pcM := State.seenBy_pcM _ _ _ _ _
@[simp] theorem State.afterCycleOn_f (s : State) (p : Platform) (a : Word) (n : Nat) : (s.afterCycleOn p a n).f = s.f := State.seenBy_f _ _ _ _ _
@[simp] theorem State.afterCycleOn_ie (s : State) (p : Platform) (a : Word) (n : Nat) : (s.afterCycleOn p a n).ie = s.ie := State.seenBy_ie _ _ _ _ _
@[simp] theorem State.afterCycleOn_pie (s : State) (p : Platform) (a : Word) (n : Nat) : (s.afterCycleOn p a n).pie = s.pie := State.seenBy_pie _ _ _ _ _
@[simp] theorem State.afterCycleOn_frm (s : State) (p : Platform) (a : Word) (n : Nat) : (s.afterCycleOn p a n).frm = s.frm := State.seenBy_frm _ _ _ _ _
@[simp] theorem State.afterCycleOn_fflags (s : State) (p : Platform) (a : Word) (n : Nat) : (s.afterCycleOn p a n).fflags = s.fflags := State.seenBy_fflags _ _ _ _ _
@[simp] theorem State.afterCycleOn_cycle (s : State) (p : Platform) (a : Word) (n : Nat) : (s.afterCycleOn p a n).cycle = s.cycle := State.seenBy_cycle _ _ _ _ _
@[simp] theorem State.afterCycleOn_time (s : State) (p : Platform) (a : Word) (n : Nat) : (s.afterCycleOn p a n).time = s.time := State.seenBy_time _ _ _ _ _
@[simp] theorem State.afterCycleOn_instret (s : State) (p : Platform) (a : Word) (n : Nat) : (s.afterCycleOn p a n).instret = s.instret := State.seenBy_instret _ _ _ _ _
@[simp] theorem State.afterCycleOn_sarg (s : State) (p : Platform) (a : Word) (n : Nat) : (s.afterCycleOn p a n).sarg = s.sarg := State.seenBy_sarg _ _ _ _ _
@[simp] theorem State.afterCycleOn_waiting (s : State) (p : Platform) (a : Word) (n : Nat) : (s.afterCycleOn p a n).waiting = s.waiting := State.seenBy_waiting _ _ _ _ _
@[simp] theorem State.afterCycleOn_mem (s : State) (p : Platform) (a : Word) (n : Nat) : (s.afterCycleOn p a n).mem = s.mem := State.seenBy_mem _ _ _ _ _
@[simp] theorem State.afterCycleOn_irqs (s : State) (p : Platform) (a : Word) (n : Nat) : (s.afterCycleOn p a n).irqs = s.irqs := State.seenBy_irqs _ _ _ _ _
@[simp] theorem State.afterCycleOn_draws (s : State) (p : Platform) (a : Word) (n : Nat) : (s.afterCycleOn p a n).draws = s.draws := State.seenBy_draws _ _ _ _ _
@[simp] theorem State.afterCycleOn_stored (s : State) (p : Platform) (a : Word) (n : Nat) : (s.afterCycleOn p a n).stored = s.stored := State.seenBy_stored _ _ _ _ _

/-! ### storeByteOn -/

@[simp] theorem storeByteOn_mode (s : State) (p : Platform) (a : Word) (b : Byte) : (storeByteOn p a b s).mode = s.mode := rfl
@[simp] theorem storeByteOn_xU (s : State) (p : Platform) (a : Word) (b : Byte) : (storeByteOn p a b s).xU = s.xU := rfl
@[simp] theorem storeByteOn_xM (s : State) (p : Platform) (a : Word) (b : Byte) : (storeByteOn p a b s).xM = s.xM := rfl
@[simp] theorem storeByteOn_pcU (s : State) (p : Platform) (a : Word) (b : Byte) : (storeByteOn p a b s).pcU = s.pcU := rfl
@[simp] theorem storeByteOn_pcM (s : State) (p : Platform) (a : Word) (b : Byte) : (storeByteOn p a b s).pcM = s.pcM := rfl
@[simp] theorem storeByteOn_f (s : State) (p : Platform) (a : Word) (b : Byte) : (storeByteOn p a b s).f = s.f := rfl
@[simp] theorem storeByteOn_ie (s : State) (p : Platform) (a : Word) (b : Byte) : (storeByteOn p a b s).ie = s.ie := rfl
@[simp] theorem storeByteOn_pie (s : State) (p : Platform) (a : Word) (b : Byte) : (storeByteOn p a b s).pie = s.pie := rfl
@[simp] theorem storeByteOn_frm (s : State) (p : Platform) (a : Word) (b : Byte) : (storeByteOn p a b s).frm = s.frm := rfl
@[simp] theorem storeByteOn_fflags (s : State) (p : Platform) (a : Word) (b : Byte) : (storeByteOn p a b s).fflags = s.fflags := rfl
@[simp] theorem storeByteOn_cycle (s : State) (p : Platform) (a : Word) (b : Byte) : (storeByteOn p a b s).cycle = s.cycle := rfl
@[simp] theorem storeByteOn_time (s : State) (p : Platform) (a : Word) (b : Byte) : (storeByteOn p a b s).time = s.time := rfl
@[simp] theorem storeByteOn_instret (s : State) (p : Platform) (a : Word) (b : Byte) : (storeByteOn p a b s).instret = s.instret := rfl
@[simp] theorem storeByteOn_sarg (s : State) (p : Platform) (a : Word) (b : Byte) : (storeByteOn p a b s).sarg = s.sarg := rfl
@[simp] theorem storeByteOn_waiting (s : State) (p : Platform) (a : Word) (b : Byte) : (storeByteOn p a b s).waiting = s.waiting := rfl
@[simp] theorem storeByteOn_irqs (s : State) (p : Platform) (a : Word) (b : Byte) : (storeByteOn p a b s).irqs = s.irqs := rfl
@[simp] theorem storeByteOn_draws (s : State) (p : Platform) (a : Word) (b : Byte) : (storeByteOn p a b s).draws = s.draws := rfl
@[simp] theorem storeByteOn_devices (s : State) (p : Platform) (a : Word) (b : Byte) : (storeByteOn p a b s).devices = s.devices := rfl

/-! ### Register files -/

/-- Register 0 of a file reads as zero (R22, R28). -/
@[simp] theorem RegFile.read_zero (rf : RegFile) : rf.read 0 = 0 := rfl

/-- What a write to a file does, once: register `i` reads as written unless `i = 0`, every other register as before. -/
theorem RegFile.read_write (rf : RegFile) (i j : BitVec 5) (v : Word) :
    (rf.write i v).read j = if j = i ∧ i ≠ 0 then v else rf.read j := by
  unfold RegFile.read RegFile.write
  split
  · rename_i h0
    subst h0
    exact (if_neg (fun h => h.2 h.1.symm)).symm
  · rename_i hj
    have hj' : j.toNat ≠ 0 := fun h => hj (BitVec.eq_of_toNat_eq h)
    split
    · rename_i hi
      exact (if_neg (fun h => h.2 hi)).symm
    · rename_i hi
      have hi' : i.toNat ≠ 0 := fun h => hi (BitVec.eq_of_toNat_eq h)
      rw [Vector.getElem_set]
      by_cases h : j = i
      · subst h
        rw [if_pos rfl, if_pos ⟨rfl, hj⟩]
      · have hne : j.toNat ≠ i.toNat := fun e => h (BitVec.eq_of_toNat_eq e)
        rw [if_neg (show ¬ i.toNat - 1 = j.toNat - 1 by omega), if_neg (show ¬ (j = i ∧ i ≠ 0) from fun e => h e.1)]

/-! ### What the accessors read after an update -/

@[simp] theorem State.x_zero (s : State) : s.x 0 = 0 := rfl
@[simp] theorem State.fp_zero (s : State) : s.fp 0 = 0 := rfl

theorem State.setX_x (s : State) (i j : XReg) (v : Word) :
    (s.setX i v).x j = if j = i ∧ i ≠ 0 then v else s.x j := by
  unfold State.x State.setX State.bank
  cases s.mode <;> simp [RegFile.read_write]

theorem State.setFp_fp (s : State) (i j : FReg) (v : Word) :
    (s.setFp i v).fp j = if j = i ∧ i ≠ 0 then v else s.fp j := by
  unfold State.fp State.setFp
  simp [RegFile.read_write]

@[simp] theorem State.setPc_pc (s : State) (a : Word) : (s.setPc a).pc = a := by
  unfold State.setPc State.pc; cases s.mode <;> simp
@[simp] theorem State.advance_pc (s : State) : s.advance.pc = s.pc + 4 := State.setPc_pc _ _
@[simp] theorem State.setX_pc (s : State) (i : XReg) (v : Word) : (s.setX i v).pc = s.pc := by
  simp [State.pc]
@[simp] theorem State.setFp_pc (s : State) (i : FReg) (v : Word) : (s.setFp i v).pc = s.pc := rfl
@[simp] theorem State.raiseFlags_pc (s : State) (fl : FFlags) : (s.raiseFlags fl).pc = s.pc := rfl
@[simp] theorem State.setPc_x (s : State) (a : Word) (j : XReg) : (s.setPc a).x j = s.x j := by
  simp [State.x, State.bank]
@[simp] theorem State.advance_x (s : State) (j : XReg) : s.advance.x j = s.x j := State.setPc_x _ _ _
@[simp] theorem State.setFp_x (s : State) (i : FReg) (v : Word) (j : XReg) : (s.setFp i v).x j = s.x j := rfl
@[simp] theorem State.raiseFlags_x (s : State) (fl : FFlags) (j : XReg) : (s.raiseFlags fl).x j = s.x j := rfl
@[simp] theorem State.setX_fp (s : State) (i : XReg) (v : Word) (j : FReg) : (s.setX i v).fp j = s.fp j := by
  simp [State.fp]
@[simp] theorem State.setPc_fp (s : State) (a : Word) (j : FReg) : (s.setPc a).fp j = s.fp j := by
  simp [State.fp]
@[simp] theorem State.advance_fp (s : State) (j : FReg) : s.advance.fp j = s.fp j := State.setPc_fp _ _ _
@[simp] theorem State.raiseFlags_fp (s : State) (fl : FFlags) (j : FReg) : (s.raiseFlags fl).fp j = s.fp j := rfl
@[simp] theorem State.raiseFlags_fflags (s : State) (fl : FFlags) : (s.raiseFlags fl).fflags = s.fflags.or fl := rfl
@[simp] theorem FFlags.or_none (a : FFlags) : a.or {} = a := by cases a; simp [FFlags.or]

/-- Writing registers and the program counter leaves the other mode's context (R23). -/
theorem State.setX_other (s : State) (i : XReg) (v : Word) : OtherContextKept s (s.setX i v) := by
  unfold OtherContextKept State.setX; cases s.mode <;> simp
theorem State.setPc_other (s : State) (a : Word) : OtherContextKept s (s.setPc a) := by
  unfold OtherContextKept State.setPc; cases s.mode <;> simp

end Sys2Proof.Machine
end

