-- ==== Sys2Proof/Laws/Ops.lean ====
section
/-! SUPPORT. One lemma per shared operation that says all it can do, and the laws of memory: a read after a write, and that
every memory operation keeps the canonical form. -/

namespace Sys2Proof.Machine

/-! ### Sequencing -/

theorem andThen_eq_next {α β : Type} {o : Host.Outcome α Fault Refusal} {k : α → Host.Outcome β Fault Refusal} {b : β} :
    andThen o k = .next b ↔ ∃ a, o = .next a ∧ k a = .next b := by
  cases o <;> simp [andThen]

@[simp] theorem andThen_next {α β : Type} (a : α) (k : α → Host.Outcome β Fault Refusal) :
    andThen (.next a) k = k a := rfl

/-! ### Memory -/

/-- A read after a write: the byte written at its own address, every other byte as before. -/
theorem Memory.read_write (m : Memory) (a c : Nat) (b : Byte) :
    (m.write a b).read c = if c = a then some b else m.read c := by
  induction m with
  | nil => simp only [Memory.write, Memory.read, eq_comm]
  | cons p m ih =>
    obtain ⟨k, v⟩ := p
    unfold Memory.write
    split
    · simp only [Memory.read, eq_comm (a := c)]
    · split
      · rename_i h
        subst h
        simp only [Memory.read, eq_comm (a := c)]
        split <;> rfl
      · rename_i h
        simp only [Memory.read, ih]
        split
        · rename_i hk
          rw [if_neg (by omega)]
        · rfl

/-- Every entry of a memory after a write is the written one or was there before. -/
theorem Memory.mem_write {m : Memory} {a : Nat} {b : Byte} {c : Host.Cell} (h : c ∈ m.write a b) :
    c = (a, b) ∨ c ∈ m := by
  induction m with
  | nil => simpa [Memory.write] using h
  | cons p m ih =>
    obtain ⟨k, v⟩ := p
    unfold Memory.write at h
    split at h
    · simpa using h
    · split at h
      · rcases List.mem_cons.1 h with h | h
        · exact .inl h
        · exact .inr (List.mem_cons_of_mem _ h)
      · rcases List.mem_cons.1 h with h | h
        · exact .inr (h ▸ List.mem_cons_self)
        · rcases ih h with h | h
          · exact .inl h
          · exact .inr (List.mem_cons_of_mem _ h)

/-- A write keeps the canonical form. -/
theorem Memory.wf_write {m : Memory} (h : Memory.wf m) {a : Nat} (ha : a < 2 ^ 32) (b : Byte) :
    Memory.wf (m.write a b) := by
  refine ⟨?_, fun c hc => ?_⟩
  · have hp := h.1
    clear h
    induction m with
    | nil => simp [Memory.write]
    | cons p m ih =>
      obtain ⟨k, v⟩ := p
      obtain ⟨hk, hm⟩ := List.pairwise_cons.1 hp
      unfold Memory.write
      split
      · rename_i hlt
        refine List.pairwise_cons.2 ⟨fun d hd => ?_, hp⟩
        rcases List.mem_cons.1 hd with rfl | hd
        · exact hlt
        · exact Nat.lt_trans hlt (hk d hd)
      · split
        · rename_i heq
          subst heq
          exact List.pairwise_cons.2 ⟨hk, hm⟩
        · refine List.pairwise_cons.2 ⟨fun d hd => ?_, ih hm⟩
          rcases Memory.mem_write hd with rfl | hd
          · show k < a
            omega
          · exact hk d hd
  · rcases Memory.mem_write hc with rfl | hc
    · exact ha
    · exact h.2 c hc

/-- A write of consecutive bytes keeps the canonical form. -/
theorem Memory.wf_writeBytes (bs : List Byte) {m : Memory} (h : Memory.wf m) (a : Word) :
    Memory.wf (m.writeBytes a bs) := by
  induction bs generalizing m a with
  | nil => exact h
  | cons b bs ih => exact ih (Memory.wf_write h a.isLt b) (a + 1)

/-- Address `a + k` of an access, counted from the byte after the first. -/
theorem add_one_add (a : Word) (k : Nat) : a + 1 + BitVec.ofNat 32 k = a + BitVec.ofNat 32 (k + 1) := by
  rw [BitVec.add_assoc]
  congr 1
  rw [Nat.add_comm k 1, BitVec.ofNat_add]
  rfl

/-- Address `a + m + k`, counted from the byte `m` of an access. -/
theorem add_ofNat_add (a : Word) (m k : Nat) : a + BitVec.ofNat 32 m + BitVec.ofNat 32 k = a + BitVec.ofNat 32 (m + k) := by
  rw [BitVec.add_assoc, BitVec.ofNat_add]

/-- Bytes outside the written ones read as before. -/
theorem Memory.read_writeBytes_other (bs : List Byte) (m : Memory) (a : Word) (c : Nat)
    (h : ∀ k < bs.length, c ≠ (a + BitVec.ofNat 32 k).toNat) : (m.writeBytes a bs).read c = m.read c := by
  induction bs generalizing m a with
  | nil => rfl
  | cons b bs ih =>
    have h0 : c ≠ a.toNat := by simpa using h 0 (by simp)
    rw [Memory.writeBytes, ih _ _ fun k hk => ?_, Memory.read_write, if_neg h0]
    rw [add_one_add]
    exact h (k + 1) (by simpa using hk)

/-- The written bytes read as written, up to 2^32 of them. -/
theorem Memory.read_writeBytes_self (bs : List Byte) (m : Memory) (a : Word) (hl : bs.length ≤ 2 ^ 32)
    (k : Nat) (hk : k < bs.length) :
    (m.writeBytes a bs).read (a + BitVec.ofNat 32 k).toNat = some bs[k] := by
  induction bs generalizing m a k with
  | nil => simp at hk
  | cons b bs ih =>
    have hl' : bs.length + 1 ≤ 2 ^ 32 := by simpa using hl
    cases k with
    | zero =>
      rw [Memory.writeBytes, Memory.read_writeBytes_other, Memory.read_write]
      · simp
      · intro j hj
        rw [add_one_add]
        simp only [BitVec.toNat_add, BitVec.toNat_ofNat]
        omega
    | succ k =>
      rw [Memory.writeBytes, ← add_one_add]
      exact ih _ _ (by omega) k (by simpa using hk)

/-! ### Accesses under a memory map -/

/-- An access reaches a device exactly where one of its bytes is a device's. -/
theorem Platform.reachesDevice_eq_false {p : Platform} {a : Word} {n : Nat} :
    p.reachesDevice a n = false ↔ ∀ k < n, p.region (a + BitVec.ofNat 32 k) ≠ .device := by
  induction n generalizing a with
  | zero => simp [Platform.reachesDevice]
  | succ n ih =>
    rw [Platform.reachesDevice, Bool.or_eq_false_iff, ih]
    simp only [beq_eq_false_iff_ne]
    constructor
    · rintro ⟨h0, h⟩ k hk
      cases k with
      | zero => simpa using h0
      | succ k =>
        rw [← add_one_add]
        exact h k (by omega)
    · intro h
      refine ⟨by simpa using h 0 (by omega), fun k hk => ?_⟩
      rw [add_one_add]
      exact h (k + 1) (by omega)

/-- An access that reaches no device leaves no trace on the platform. -/
theorem State.seenBy_eq_self {p : Platform} {acc : DeviceAccess} {a : Word} {n : Nat} {s : State}
    (h : ∀ k < n, p.region (a + BitVec.ofNat 32 k) ≠ .device) : s.seenBy p acc a n = s := by
  simp [State.seenBy, Platform.reachesDevice_eq_false.2 h]

/-- A byte is read from memory where it has a value, or is answered by a device. -/
theorem readByteOn_eq_next {p : Platform} {s : State} {a : Word} {b : Byte} :
    readByteOn p s a = .next b ↔
      ((p.region a = .ram ∨ p.region a = .rom) ∧ s.mem.read a.toNat = some b) ∨
        (p.region a = .device ∧ b = Config.deviceByte s.devices s.draws a) := by
  unfold readByteOn
  cases p.region a <;> cases s.mem.read a.toNat <;> simp [eq_comm]

/-- A read of several bytes answers the list of what each single read answers. -/
theorem readBytesOn_eq_next {p : Platform} {s : State} {a : Word} {n : Nat} {bs : List Byte} :
    readBytesOn p s a n = .next bs ↔
      bs.length = n ∧ ∀ k (h : k < bs.length), readByteOn p s (a + BitVec.ofNat 32 k) = .next bs[k] := by
  induction n generalizing a bs with
  | zero =>
    simp only [readBytesOn, Host.Outcome.next.injEq, List.length_eq_zero_iff]
    exact ⟨fun h => ⟨h.symm, fun k hk => by simp [← h] at hk⟩, fun h => h.1.symm⟩
  | succ n ih =>
    simp only [readBytesOn, andThen_eq_next, Host.Outcome.next.injEq]
    constructor
    · rintro ⟨b, hb, bs', hbs, rfl⟩
      obtain ⟨hl, hat⟩ := ih.1 hbs
      refine ⟨by simp [hl], fun k hk => ?_⟩
      cases k with
      | zero => simpa using hb
      | succ k =>
        have := hat k (by simpa using hk)
        rwa [add_one_add] at this
    · rintro ⟨hl, hat⟩
      cases bs with
      | nil => simp at hl
      | cons b bs =>
        refine ⟨b, by simpa [List.getElem_cons_zero] using hat 0 (Nat.zero_lt_succ _), bs, ih.2 ⟨by simpa using hl, fun k hk => ?_⟩, rfl⟩
        rw [add_one_add]
        exact hat (k + 1) (by simpa using hk)

/-- A read of bytes is a read of the first of them and a read of the rest. -/
theorem readBytesOn_append (p : Platform) (s : State) (a : Word) (m n : Nat) :
    readBytesOn p s a (m + n) = andThen (readBytesOn p s a m) fun bs =>
      andThen (readBytesOn p s (a + BitVec.ofNat 32 m) n) fun cs => .next (bs ++ cs) := by
  induction m generalizing a with
  | zero => cases h : readBytesOn p s a n <;> simp [readBytesOn, andThen, h]
  | succ m ih =>
    rw [Nat.succ_add, readBytesOn, readBytesOn, ih, ← add_one_add]
    cases readByteOn p s a <;> simp only [andThen]
    cases readBytesOn p s (a + 1) m <;> simp only
    cases readBytesOn p s (a + 1 + BitVec.ofNat 32 m) n <;> simp

theorem firstCycle_le (a : Word) (n : Nat) : firstCycle a n ≤ n := Nat.sub_le _ _

/-- An aligned access is one bus cycle. -/
theorem firstCycle_aligned {a : Word} {n : Nat} (h : a.toNat % n = 0) : firstCycle a n = n := by simp [firstCycle, h]

/-- A bus cycle that reaches no device leaves no trace. -/
theorem State.afterCycleOn_eq_self {p : Platform} {s : State} {a : Word} {n : Nat}
    (h : ∀ k < n, p.region (a + BitVec.ofNat 32 k) ≠ .device) : s.afterCycleOn p a n = s := State.seenBy_eq_self h

/-- The bytes of the second bus cycle are bytes of the access. -/
theorem secondCycle_forall {P : Word → Prop} {a : Word} {n : Nat} (h : ∀ k < n, P (a + BitVec.ofNat 32 k)) :
    ∀ k < n - firstCycle a n, P (a + BitVec.ofNat 32 (firstCycle a n) + BitVec.ofNat 32 k) := fun k hk => by
  rw [add_ofNat_add]
  exact h _ (by omega)

/-- A read that reaches no device has no effect. -/
theorem State.afterReadOn_eq_self {p : Platform} {s : State} {a : Word} {n : Nat}
    (h : ∀ k < n, p.region (a + BitVec.ofNat 32 k) ≠ .device) : s.afterReadOn p a n = s := by
  rw [State.afterReadOn, State.afterCycleOn_eq_self fun k hk => h k (Nat.lt_of_lt_of_le hk (firstCycle_le a n)),
    State.afterCycleOn_eq_self (secondCycle_forall (P := fun c => p.region c ≠ .device) h)]

/-- MemRead answers exactly where every byte can be read, each in the state of its bus cycle. -/
theorem memReadOn_eq_next {p : Platform} {s : State} {a : Word} {n : Nat} {v : Word} :
    memReadOn p s a n = .next v ↔ ∃ bs cs : List Byte,
      (bs.length = firstCycle a n ∧ ∀ k (h : k < bs.length),
        readByteOn p (s.afterCycleOn p a (firstCycle a n)) (a + BitVec.ofNat 32 k) = .next bs[k]) ∧
      (cs.length = n - firstCycle a n ∧ ∀ k (h : k < cs.length),
        readByteOn p (s.afterReadOn p a n) (a + BitVec.ofNat 32 (firstCycle a n) + BitVec.ofNat 32 k) = .next cs[k]) ∧
      v = wordOfBytes (bs ++ cs) := by
  simp only [memReadOn, readCycleOn, andThen_eq_next, readBytesOn_eq_next, Host.Outcome.next.injEq]
  exact ⟨fun ⟨bs, h, cs, h', e⟩ => ⟨bs, cs, h, h', e.symm⟩, fun ⟨bs, cs, h, h', e⟩ => ⟨bs, h, cs, h', e.symm⟩⟩

/-- A read that reaches no device reads its bytes as if by one bus cycle. -/
theorem memReadOn_eq_readBytesOn {p : Platform} {s : State} {a : Word} {n : Nat}
    (h : ∀ k < n, p.region (a + BitVec.ofNat 32 k) ≠ .device) :
    memReadOn p s a n = andThen (readBytesOn p s a n) fun bs => .next (wordOfBytes bs) := by
  have hn : n = firstCycle a n + (n - firstCycle a n) := by have := firstCycle_le a n; omega
  conv => rhs; rw [hn, readBytesOn_append]
  rw [memReadOn, readCycleOn, readCycleOn,
    State.afterCycleOn_eq_self fun k hk => h k (Nat.lt_of_lt_of_le hk (firstCycle_le a n)),
    State.afterCycleOn_eq_self (secondCycle_forall (P := fun c => p.region c ≠ .device) h)]
  cases readBytesOn p s a (firstCycle a n) <;> simp only [andThen]
  cases readBytesOn p s (a + BitVec.ofNat 32 (firstCycle a n)) (n - firstCycle a n) <;> rfl

/-- A store is not refused exactly where every byte of the access is ram or a device's. -/
theorem storeRefusalOn_eq_none {p : Platform} {a : Word} {n : Nat} : storeRefusalOn p a n = none ↔
    ∀ k < n, p.region (a + BitVec.ofNat 32 k) = .ram ∨ p.region (a + BitVec.ofNat 32 k) = .device := by
  induction n generalizing a with
  | zero => simp [storeRefusalOn]
  | succ n ih =>
    have hs : (∀ k < n + 1, p.region (a + BitVec.ofNat 32 k) = .ram ∨ p.region (a + BitVec.ofNat 32 k) = .device) ↔
        (p.region a = .ram ∨ p.region a = .device) ∧
          ∀ k < n, p.region (a + 1 + BitVec.ofNat 32 k) = .ram ∨ p.region (a + 1 + BitVec.ofNat 32 k) = .device := by
      constructor
      · intro h
        refine ⟨by simpa using h 0 (by omega), fun k hk => ?_⟩
        rw [add_one_add]
        exact h (k + 1) (by omega)
      · rintro ⟨h0, h⟩ k hk
        cases k with
        | zero => simpa using h0
        | succ k =>
          rw [← add_one_add]
          exact h k (by omega)
    rw [hs, ← ih, storeRefusalOn]
    cases p.region a <;> simp

/-- A store of bytes changes memory and the record of stored addresses, and nothing else. -/
theorem storeBytesOn_frame (p : Platform) (a : Word) (bs : List Byte) (s : State) :
    ∃ m st, storeBytesOn p a bs s = { s with mem := m, stored := st } := by
  induction bs generalizing a s with
  | nil => exact ⟨s.mem, s.stored, rfl⟩
  | cons b bs ih =>
    obtain ⟨m, st, h⟩ := ih (a + 1) (storeByteOn p a b s)
    exact ⟨m, st, h⟩

/-- A store of bytes keeps the canonical form of memory. -/
theorem storeBytesOn_wf (p : Platform) (bs : List Byte) {s : State} (h : Memory.wf s.mem) (a : Word) :
    Memory.wf (storeBytesOn p a bs s).mem := by
  induction bs generalizing s a with
  | nil => exact h
  | cons b bs ih =>
    refine ih ?_ (a + 1)
    show Memory.wf (if p.region a = .device then s.mem else s.mem.write a.toNat b)
    split
    · exact h
    · exact Memory.wf_write h a.isLt b

/-- A store of bytes is a store of the first of them and a store of the rest. -/
theorem storeBytesOn_append (p : Platform) (a : Word) (bs cs : List Byte) (s : State) :
    storeBytesOn p a (bs ++ cs) s = storeBytesOn p (a + BitVec.ofNat 32 bs.length) cs (storeBytesOn p a bs s) := by
  induction bs generalizing a s with
  | nil => simp [storeBytesOn]
  | cons b bs ih => rw [List.cons_append, storeBytesOn, ih, add_one_add, List.length_cons, storeBytesOn]

/-- A store of bytes changes memory, the record of stored addresses, and what the platform has seen, and nothing else. -/
theorem State.afterWriteOn_frame (p : Platform) (s : State) (a : Word) (bs : List Byte) :
    ∃ m st d, s.afterWriteOn p a bs = { s with mem := m, stored := st, devices := d } := by
  have cycle : ∀ a bs u, ∃ m st d, writeCycleOn p a bs u = { u with mem := m, stored := st, devices := d } := by
    intro a bs u
    obtain ⟨m, st, h⟩ := storeBytesOn_frame p a bs (u.seenBy p (.write a bs) a bs.length)
    refine ⟨m, st, (u.seenBy p (.write a bs) a bs.length).devices, h.trans ?_⟩
    unfold State.seenBy
    split <;> rfl
  obtain ⟨m, st, d, h⟩ := cycle a (bs.take (firstCycle a bs.length)) s
  obtain ⟨m', st', d', h'⟩ := cycle (a + BitVec.ofNat 32 (firstCycle a bs.length))
    (bs.drop (firstCycle a bs.length)) { s with mem := m, stored := st, devices := d }
  exact ⟨m', st', d', by rw [State.afterWriteOn, h, h']⟩

/-- A store that reaches no device stores its bytes as if by one bus cycle. -/
theorem State.afterWriteOn_eq_storeBytesOn {p : Platform} {s : State} {a : Word} {bs : List Byte}
    (h : ∀ k < bs.length, p.region (a + BitVec.ofNat 32 k) ≠ .device) :
    s.afterWriteOn p a bs = storeBytesOn p a bs s := by
  have hle := firstCycle_le a bs.length
  rw [State.afterWriteOn, writeCycleOn, writeCycleOn, List.length_drop, List.length_take, Nat.min_eq_left hle,
    State.seenBy_eq_self (secondCycle_forall (P := fun c => p.region c ≠ .device) h),
    State.seenBy_eq_self fun k hk => h k (Nat.lt_of_lt_of_le hk hle)]
  conv => rhs; rw [← List.take_append_drop (firstCycle a bs.length) bs, storeBytesOn_append, List.length_take,
    Nat.min_eq_left hle]

/-- MemWrite stores where every byte is ram or a device's, and stores nothing anywhere else. -/
theorem memWriteOn_eq_next {p : Platform} {s t : State} {a : Word} {n : Nat} {v : Word} :
    memWriteOn p s a n v = .next t ↔
      (∀ k < n, p.region (a + BitVec.ofNat 32 k) = .ram ∨ p.region (a + BitVec.ofNat 32 k) = .device) ∧
        t = s.afterWriteOn p a (bytesOfWord n v) := by
  unfold memWriteOn
  rw [← storeRefusalOn_eq_none]
  cases storeRefusalOn p a n <;> simp [eq_comm]

/-- MemWrite keeps the canonical form of memory, on every platform. -/
theorem memWriteOn_wf {p : Platform} {s t : State} {a : Word} {n : Nat} {v : Word} (h : memWriteOn p s a n v = .next t)
    (hw : Memory.wf s.mem) : Memory.wf t.mem := by
  obtain ⟨-, rfl⟩ := memWriteOn_eq_next.1 h
  have cycle : ∀ a bs {u : State}, Memory.wf u.mem → Memory.wf (writeCycleOn p a bs u).mem :=
    fun a bs _ hu => storeBytesOn_wf p bs (by simpa using hu) a
  exact cycle _ _ (cycle _ _ hw)

/-- Where fetches are coherent and no byte is a device's, a store of bytes is a write to memory. -/
theorem storeBytesOn_eq_writeBytes {p : Platform} (hc : p.ifetchCoherent = true) (bs : List Byte) (a : Word) (s : State)
    (h : ∀ k < bs.length, p.region (a + BitVec.ofNat 32 k) ≠ .device) :
    storeBytesOn p a bs s = { s with mem := s.mem.writeBytes a bs } := by
  induction bs generalizing a s with
  | nil => rfl
  | cons b bs ih =>
    have h0 : p.region a ≠ .device := by simpa using h 0 (by simp)
    rw [storeBytesOn, ih]
    · simp [storeByteOn, h0, hc, Memory.writeBytes]
    · intro k hk
      rw [add_one_add]
      exact h (k + 1) (by simpa using hk)

/-! ### Accesses on the platform of this model, which places neither a device nor a hole (log 6) -/

theorem regionOf_cases (a : Word) : regionOf a = .ram ∨ regionOf a = .rom := by
  unfold regionOf Platform.region platform memoryMap
  unfold regionIn
  split
  · exact .inr rfl
  · exact .inl rfl

theorem regionOf_ne_device (a : Word) : regionOf a ≠ .device := by
  rcases regionOf_cases a with h | h <;> simp [h]

/-- No read has an effect. -/
@[simp] theorem State.afterRead_eq (s : State) (a : Word) (n : Nat) : s.afterRead a n = s :=
  State.afterReadOn_eq_self fun _ _ => regionOf_ne_device _

/-- A byte is read exactly where it has a value. -/
theorem readByte_eq_next {s : State} {a : Word} {b : Byte} :
    readByte s a = .next b ↔ (regionOf a = .ram ∨ regionOf a = .rom) ∧ s.mem.read a.toNat = some b :=
  readByteOn_eq_next.trans (or_iff_left fun h => regionOf_ne_device a h.1)

/-- MemRead answers exactly where every byte of the access can be read. -/
theorem memRead_eq_next {s : State} {a : Word} {n : Nat} {v : Word} :
    memRead s a n = .next v ↔ ∃ bs, bs.length = n ∧ BytesAt s a bs ∧ v = wordOfBytes bs := by
  rw [memRead, memReadOn_eq_readBytesOn fun _ _ => regionOf_ne_device _]
  simp only [andThen_eq_next, readBytesOn_eq_next, Host.Outcome.next.injEq, BytesAt, ← readByte_eq_next, readByte,
    and_assoc, eq_comm (b := v)]

/-- MemWrite stores every byte where all of them are ram, and stores nothing anywhere else. -/
theorem memWrite_eq_next {s t : State} {a : Word} {n : Nat} {v : Word} :
    memWrite s a n v = .next t ↔ AllRam a n ∧ t = { s with mem := s.mem.writeBytes a (bytesOfWord n v) } := by
  rw [memWrite, memWriteOn_eq_next, State.afterWriteOn_eq_storeBytesOn fun _ _ => regionOf_ne_device _,
    storeBytesOn_eq_writeBytes rfl _ _ _ fun _ _ => regionOf_ne_device _]
  refine and_congr_left fun _ => forall_congr' fun k => imp_congr_right fun _ => or_iff_left (regionOf_ne_device _)

/-- MemWrite keeps the canonical form of memory. -/
theorem memWrite_wf {s t : State} {a : Word} {n : Nat} {v : Word} (h : memWrite s a n v = .next t)
    (hw : Memory.wf s.mem) : Memory.wf t.mem := by
  obtain ⟨-, rfl⟩ := memWrite_eq_next.1 h
  exact Memory.wf_writeBytes _ hw _

/-- Where fetches are coherent, a fetch is a read of the four bytes at an aligned program counter. -/
theorem fetch_eq_next {s : State} {w : Word} : fetch s = .next w ↔ Aligned s.pc ∧ memRead s s.pc 4 = .next w := by
  have hf : fetchAligned s.pc = true ↔ Aligned s.pc := by
    simp only [fetchAligned, branchMisaligned, Bool.or_eq_true, beq_iff_eq, reduceCtorEq, or_false]
  unfold fetch fetchOn
  by_cases h : Aligned s.pc
  · rw [if_pos (hf.2 h)]
    exact ⟨fun e => ⟨h, e⟩, fun e => e.2⟩
  · rw [if_neg (mt hf.1 h)]
    exact ⟨fun e => (nomatch e), fun e => absurd e.1 h⟩

/-- Placing an instruction where the next step fetches keeps the canonical form. -/
theorem State.withFetchWord_wf {s : State} (nbits w : Nat) (hw : Memory.wf s.mem) :
    Memory.wf (s.withFetchWord nbits w).mem := Memory.wf_writeBytes _ hw _

/-- Memory at reset is in canonical form. -/
theorem State.reset_mem_wf : Memory.wf State.reset.mem := by decide

/-- The bytes of a word: the `k`-th of its `n` low bytes, least significant first. -/
theorem lowBytes_length (n : Nat) (w : Word) : (lowBytes n w).length = n := by
  induction n generalizing w with
  | zero => rfl
  | succ n ih => simp [lowBytes, ih]

theorem lowBytes_getElem (n : Nat) (w : Word) (k : Nat) (h : k < (lowBytes n w).length) :
    (lowBytes n w)[k] = w.extractLsb' (8 * k) 8 := by
  induction n generalizing w k with
  | zero => simp [lowBytes] at h
  | succ n ih =>
    cases k with
    | zero => rfl
    | succ k =>
      simp only [lowBytes, List.getElem_cons_succ, ih]
      apply BitVec.eq_of_getLsbD_eq
      intro i hi
      simp only [BitVec.getLsbD_extractLsb', BitVec.getLsbD_ushiftRight, hi, decide_true, Bool.true_and]
      congr 1
      omega

theorem bytesOfWord_eq (n : Nat) (w : Word) : bytesOfWord n w = lowBytes n w := rfl

/-! ### Control -/

/-- A taken branch goes to its target where that is a multiple of 4, and nowhere else. -/
theorem branchTo_eq_next {a : Word} {s t : State} : branchTo a s = .next t ↔ Aligned a ∧ t = s.setPc a := by
  unfold branchTo Aligned
  split
  · rename_i h
    simp [h, eq_comm]
  · rename_i h
    exact ⟨fun e => (nomatch e), fun e => absurd e.1 h⟩

/-- A conditional branch: taken to an aligned target, or the next instruction. -/
theorem branchIf_eq_next {taken : Bool} {off : BitVec 12} {s t : State} :
    branchIf taken off s = .next t ↔
      (taken = true ∧ Aligned (s.pc + immB off) ∧ t = s.setPc (s.pc + immB off)) ∨ (taken = false ∧ t = s.advance) := by
  cases taken
  · simp [branchIf, eq_comm]
  · simp [branchIf, branchTo_eq_next]

/-- A floating-point instruction goes on with the mode of its effective code, if the code has one. -/
theorem withRounding_eq_next {rm : BitVec 3} {s t : State} {k : Rounding → Result} :
    withRounding rm s k = .next t ↔ ∃ m, roundingOfCode (s.rmCode rm) = some m ∧ k m = .next t := by
  unfold withRounding
  cases roundingOfCode (s.rmCode rm) <;> simp

/-- Under FP_ARITH = ieee754 an operation delivers the IEEE 754 result. -/
@[simp] theorem arith_eq (op : FpOp) (m : Rounding) (a b : Word) (r : Rounded) : arith op m a b r = r := rfl

/-- A synchronous event enters machine mode from user mode, and does nothing else. -/
theorem raiseTrap_eq_next {c : TrapCause} {s t : State} :
    raiseTrap c s = .next t ↔ s.mode = .user ∧ t = takeTrap c s := by
  unfold raiseTrap
  cases s.mode <;> simp [eq_comm]

/-- A load of an integer register. -/
theorem loadX_eq_next {rd rs1 : XReg} {imm : BitVec 12} {n : Nat} {ext : Word → Word} {s t : State} :
    loadX rd rs1 imm n ext s = .next t ↔
      ∃ v, memRead s (s.ea rs1 imm) n = .next v ∧ t = (s.setX rd (ext v)).advance := by
  simp only [loadX, loadThen, State.afterRead_eq, andThen_eq_next, writeX, Host.Outcome.next.injEq, eq_comm (b := t)]

/-- A store. -/
theorem storeV_eq_next {rs1 : XReg} {imm : BitVec 12} {n : Nat} {v : Word} {s t : State} :
    storeV rs1 imm n v s = .next t ↔
      AllRam (s.ea rs1 imm) n ∧
        t = State.advance { s with mem := s.mem.writeBytes (s.ea rs1 imm) (bytesOfWord n v) } := by
  simp only [storeV, andThen_eq_next, memWrite_eq_next, Host.Outcome.next.injEq]
  constructor
  · rintro ⟨u, ⟨h, rfl⟩, rfl⟩
    exact ⟨h, rfl⟩
  · rintro ⟨h, rfl⟩
    exact ⟨_, ⟨h, rfl⟩, rfl⟩

/-- WFI or its wait: an interrupt present ends it, by trap entry or by going on; none present pauses the core. -/
theorem waitForInterrupt_cases (s : State) :
    (s.irq = true ∧ s.mode = .user ∧ s.ie = true ∧
        waitForInterrupt s = takeTrap (.interrupt .wait) { s with waiting := false }) ∨
      (s.irq = true ∧ ¬ (s.mode = .user ∧ s.ie = true) ∧
        waitForInterrupt s = State.advance { s with waiting := false }) ∨
      (s.irq = false ∧ waitForInterrupt s = { s with waiting := true }) := by
  unfold waitForInterrupt
  cases s.irq <;> cases s.mode <;> cases s.ie <;> simp

/-- Everything a step can do: a wait, an interrupt between instructions, or one decoded instruction. -/
theorem step_eq_next {s t : State} :
    step s = .next t ↔
      (s.waiting = true ∧ t = finishInstr (waitForInterrupt s)) ∨
        (s.waiting = false ∧ s.interruptReady = true ∧ t = elapse (takeTrap (.interrupt .between) s)) ∨
        (s.waiting = false ∧ s.interruptReady = false ∧
          ∃ w i u, fetch s = .next w ∧ decode w = .ok i ∧ exec i s = .next u ∧ t = finishInstr u) := by
  unfold step
  split
  · rename_i hw
    simp only [hw, Host.Outcome.next.injEq, eq_comm (b := t), true_and, Bool.true_eq_false, false_and, or_false]
  · rename_i hw
    split
    · rename_i hr
      simp only [hw, hr, Host.Outcome.next.injEq, eq_comm (b := t), true_and, false_and, Bool.true_eq_false,
        Bool.false_eq_true, and_false, false_or, or_false]
    · rename_i hr
      simp only [Bool.not_eq_true] at hw hr
      simp only [hw, hr, stepInstr, State.afterRead_eq, andThen_eq_next, true_and, false_and, and_false, false_or, Bool.false_eq_true]
      constructor
      · rintro ⟨w, hf, h⟩
        cases hd : decode w with
        | error e => simp [hd, illegalBehaviour, refuseUnlisted] at h
        | ok i =>
          simp only [hd, andThen_eq_next, Host.Outcome.next.injEq] at h
          obtain ⟨u, hu, rfl⟩ := h
          exact ⟨w, i, u, hf, hd, hu, rfl⟩
      · rintro ⟨w, i, u, hf, hd, hu, rfl⟩
        exact ⟨w, hf, by simp only [hd, hu, andThen_next]⟩

end Sys2Proof.Machine
end

