-- ==== Sys2Proof/Laws/PerInstr.lean ====
section
/-! SUPPORT. Per-instruction lemmas: every encoded word carries one of the fourteen major opcodes of R112. -/

namespace Sys2Proof.Laws.MajorOpcode

/-- The major opcodes that the decode tree of spec/30_encoding.md R112 lists. -/
def listed : List (BitVec 7) := [3, 7, 15, 19, 23, 35, 39, 51, 55, 83, 99, 103, 111, 115]

/-- The word of the instruction has a listed major opcode. -/
def Statement (i : Instr) : Prop := opcodeOf (encode i) ∈ listed

theorem mem_listed {w : Word} {op : BitVec 7} (h : opcodeOf w = op) (ho : op ∈ listed) : opcodeOf w ∈ listed := h ▸ ho

theorem lui (rd : XReg) (imm : BitVec 20) : Statement (.lui rd imm) :=
  mem_listed (opcode_encodeU ..) (by decide)
theorem auipc (rd : XReg) (imm : BitVec 20) : Statement (.auipc rd imm) :=
  mem_listed (opcode_encodeU ..) (by decide)
theorem jal (rd : XReg) (off : BitVec 20) : Statement (.jal rd off) :=
  mem_listed (opcode_encodeJ ..) (by decide)
theorem call (off : BitVec 20) : Statement (.call off) :=
  mem_listed (opcode_encodeJ ..) (by decide)
theorem jalr (rd rs1 : XReg) (imm : BitVec 12) : Statement (.jalr rd rs1 imm) :=
  mem_listed (opcode_encodeI ..) (by decide)
theorem ret : Statement .ret :=
  mem_listed (opcode_encodeI ..) (by decide)
theorem beq (rs1 rs2 : XReg) (off : BitVec 12) : Statement (.beq rs1 rs2 off) :=
  mem_listed (opcode_encodeB ..) (by decide)
theorem bne (rs1 rs2 : XReg) (off : BitVec 12) : Statement (.bne rs1 rs2 off) :=
  mem_listed (opcode_encodeB ..) (by decide)
theorem blt (rs1 rs2 : XReg) (off : BitVec 12) : Statement (.blt rs1 rs2 off) :=
  mem_listed (opcode_encodeB ..) (by decide)
theorem bge (rs1 rs2 : XReg) (off : BitVec 12) : Statement (.bge rs1 rs2 off) :=
  mem_listed (opcode_encodeB ..) (by decide)
theorem bltu (rs1 rs2 : XReg) (off : BitVec 12) : Statement (.bltu rs1 rs2 off) :=
  mem_listed (opcode_encodeB ..) (by decide)
theorem bgeu (rs1 rs2 : XReg) (off : BitVec 12) : Statement (.bgeu rs1 rs2 off) :=
  mem_listed (opcode_encodeB ..) (by decide)
theorem bra (off : BitVec 12) : Statement (.bra off) :=
  mem_listed (opcode_encodeB ..) (by decide)
theorem lb (rd rs1 : XReg) (imm : BitVec 12) : Statement (.lb rd rs1 imm) :=
  mem_listed (opcode_encodeI ..) (by decide)
theorem lh (rd rs1 : XReg) (imm : BitVec 12) : Statement (.lh rd rs1 imm) :=
  mem_listed (opcode_encodeI ..) (by decide)
theorem lw (rd rs1 : XReg) (imm : BitVec 12) : Statement (.lw rd rs1 imm) :=
  mem_listed (opcode_encodeI ..) (by decide)
theorem lbu (rd rs1 : XReg) (imm : BitVec 12) : Statement (.lbu rd rs1 imm) :=
  mem_listed (opcode_encodeI ..) (by decide)
theorem lhu (rd rs1 : XReg) (imm : BitVec 12) : Statement (.lhu rd rs1 imm) :=
  mem_listed (opcode_encodeI ..) (by decide)
theorem flw (frd : FReg) (rs1 : XReg) (imm : BitVec 12) : Statement (.flw frd rs1 imm) :=
  mem_listed (opcode_encodeI ..) (by decide)
theorem sb (rs2 rs1 : XReg) (imm : BitVec 12) : Statement (.sb rs2 rs1 imm) :=
  mem_listed (opcode_encodeS ..) (by decide)
theorem sh (rs2 rs1 : XReg) (imm : BitVec 12) : Statement (.sh rs2 rs1 imm) :=
  mem_listed (opcode_encodeS ..) (by decide)
theorem sw (rs2 rs1 : XReg) (imm : BitVec 12) : Statement (.sw rs2 rs1 imm) :=
  mem_listed (opcode_encodeS ..) (by decide)
theorem fsw (frs2 : FReg) (rs1 : XReg) (imm : BitVec 12) : Statement (.fsw frs2 rs1 imm) :=
  mem_listed (opcode_encodeS ..) (by decide)
theorem addi (rd rs1 : XReg) (imm : BitVec 12) : Statement (.addi rd rs1 imm) :=
  mem_listed (opcode_encodeI ..) (by decide)
theorem nop : Statement .nop :=
  mem_listed (opcode_encodeI ..) (by decide)
theorem slti (rd rs1 : XReg) (imm : BitVec 12) : Statement (.slti rd rs1 imm) :=
  mem_listed (opcode_encodeI ..) (by decide)
theorem sltui (rd rs1 : XReg) (imm : BitVec 12) : Statement (.sltui rd rs1 imm) :=
  mem_listed (opcode_encodeI ..) (by decide)
theorem xori (rd rs1 : XReg) (imm : BitVec 12) : Statement (.xori rd rs1 imm) :=
  mem_listed (opcode_encodeI ..) (by decide)
theorem ori (rd rs1 : XReg) (imm : BitVec 12) : Statement (.ori rd rs1 imm) :=
  mem_listed (opcode_encodeI ..) (by decide)
theorem ldi (rd : XReg) (imm : BitVec 12) : Statement (.ldi rd imm) :=
  mem_listed (opcode_encodeI ..) (by decide)
theorem andi (rd rs1 : XReg) (imm : BitVec 12) : Statement (.andi rd rs1 imm) :=
  mem_listed (opcode_encodeI ..) (by decide)
theorem slli (rd rs1 : XReg) (shamt : BitVec 5) : Statement (.slli rd rs1 shamt) :=
  mem_listed (opcode_encodeR ..) (by decide)
theorem srli (rd rs1 : XReg) (shamt : BitVec 5) : Statement (.srli rd rs1 shamt) :=
  mem_listed (opcode_encodeR ..) (by decide)
theorem srai (rd rs1 : XReg) (shamt : BitVec 5) : Statement (.srai rd rs1 shamt) :=
  mem_listed (opcode_encodeR ..) (by decide)
theorem add (rd rs1 rs2 : XReg) : Statement (.add rd rs1 rs2) :=
  mem_listed (opcode_encodeR ..) (by decide)
theorem sub (rd rs1 rs2 : XReg) : Statement (.sub rd rs1 rs2) :=
  mem_listed (opcode_encodeR ..) (by decide)
theorem mul (rd rs1 rs2 : XReg) : Statement (.mul rd rs1 rs2) :=
  mem_listed (opcode_encodeR ..) (by decide)
theorem sll (rd rs1 rs2 : XReg) : Statement (.sll rd rs1 rs2) :=
  mem_listed (opcode_encodeR ..) (by decide)
theorem slt (rd rs1 rs2 : XReg) : Statement (.slt rd rs1 rs2) :=
  mem_listed (opcode_encodeR ..) (by decide)
theorem sltu (rd rs1 rs2 : XReg) : Statement (.sltu rd rs1 rs2) :=
  mem_listed (opcode_encodeR ..) (by decide)
theorem xor (rd rs1 rs2 : XReg) : Statement (.xor rd rs1 rs2) :=
  mem_listed (opcode_encodeR ..) (by decide)
theorem srl (rd rs1 rs2 : XReg) : Statement (.srl rd rs1 rs2) :=
  mem_listed (opcode_encodeR ..) (by decide)
theorem sra (rd rs1 rs2 : XReg) : Statement (.sra rd rs1 rs2) :=
  mem_listed (opcode_encodeR ..) (by decide)
theorem or (rd rs1 rs2 : XReg) : Statement (.or rd rs1 rs2) :=
  mem_listed (opcode_encodeR ..) (by decide)
theorem mov (rd rs1 : XReg) : Statement (.mov rd rs1) :=
  mem_listed (opcode_encodeR ..) (by decide)
theorem and (rd rs1 rs2 : XReg) : Statement (.and rd rs1 rs2) :=
  mem_listed (opcode_encodeR ..) (by decide)
theorem fadd (frd frs1 frs2 : FReg) (rm : BitVec 3) : Statement (.fadd frd frs1 frs2 rm) :=
  mem_listed (opcode_encodeR ..) (by decide)
theorem fsub (frd frs1 frs2 : FReg) (rm : BitVec 3) : Statement (.fsub frd frs1 frs2 rm) :=
  mem_listed (opcode_encodeR ..) (by decide)
theorem fmul (frd frs1 frs2 : FReg) (rm : BitVec 3) : Statement (.fmul frd frs1 frs2 rm) :=
  mem_listed (opcode_encodeR ..) (by decide)
theorem fdiv (frd frs1 frs2 : FReg) (rm : BitVec 3) : Statement (.fdiv frd frs1 frs2 rm) :=
  mem_listed (opcode_encodeR ..) (by decide)
theorem fmin (frd frs1 frs2 : FReg) : Statement (.fmin frd frs1 frs2) :=
  mem_listed (opcode_encodeR ..) (by decide)
theorem fmax (frd frs1 frs2 : FReg) : Statement (.fmax frd frs1 frs2) :=
  mem_listed (opcode_encodeR ..) (by decide)
theorem fsqrt (frd frs1 : FReg) (rm : BitVec 3) : Statement (.fsqrt frd frs1 rm) :=
  mem_listed (opcode_encodeR ..) (by decide)
theorem fsgnj (frd frs1 frs2 : FReg) : Statement (.fsgnj frd frs1 frs2) :=
  mem_listed (opcode_encodeR ..) (by decide)
theorem fmov (frd frs1 : FReg) : Statement (.fmov frd frs1) :=
  mem_listed (opcode_encodeR ..) (by decide)
theorem fsgnjn (frd frs1 frs2 : FReg) : Statement (.fsgnjn frd frs1 frs2) :=
  mem_listed (opcode_encodeR ..) (by decide)
theorem fneg (frd frs1 : FReg) : Statement (.fneg frd frs1) :=
  mem_listed (opcode_encodeR ..) (by decide)
theorem fsgnjx (frd frs1 frs2 : FReg) : Statement (.fsgnjx frd frs1 frs2) :=
  mem_listed (opcode_encodeR ..) (by decide)
theorem fabs (frd frs1 : FReg) : Statement (.fabs frd frs1) :=
  mem_listed (opcode_encodeR ..) (by decide)
theorem feq (rd : XReg) (frs1 frs2 : FReg) : Statement (.feq rd frs1 frs2) :=
  mem_listed (opcode_encodeR ..) (by decide)
theorem flt (rd : XReg) (frs1 frs2 : FReg) : Statement (.flt rd frs1 frs2) :=
  mem_listed (opcode_encodeR ..) (by decide)
theorem fle (rd : XReg) (frs1 frs2 : FReg) : Statement (.fle rd frs1 frs2) :=
  mem_listed (opcode_encodeR ..) (by decide)
theorem fcvtWS (rd : XReg) (frs1 : FReg) (rm : BitVec 3) : Statement (.fcvtWS rd frs1 rm) :=
  mem_listed (opcode_encodeR ..) (by decide)
theorem fcvtWuS (rd : XReg) (frs1 : FReg) (rm : BitVec 3) : Statement (.fcvtWuS rd frs1 rm) :=
  mem_listed (opcode_encodeR ..) (by decide)
theorem fcvtSW (frd : FReg) (rs1 : XReg) (rm : BitVec 3) : Statement (.fcvtSW frd rs1 rm) :=
  mem_listed (opcode_encodeR ..) (by decide)
theorem fcvtSWu (frd : FReg) (rs1 : XReg) (rm : BitVec 3) : Statement (.fcvtSWu frd rs1 rm) :=
  mem_listed (opcode_encodeR ..) (by decide)
theorem fmvXS (rd : XReg) (frs1 : FReg) : Statement (.fmvXS rd frs1) :=
  mem_listed (opcode_encodeR ..) (by decide)
theorem fclass (rd : XReg) (frs1 : FReg) : Statement (.fclass rd frs1) :=
  mem_listed (opcode_encodeR ..) (by decide)
theorem fmvSX (frd : FReg) (rs1 : XReg) : Statement (.fmvSX frd rs1) :=
  mem_listed (opcode_encodeR ..) (by decide)
theorem fence (pred succ : BitVec 4) : Statement (.fence pred succ) :=
  mem_listed (opcode_encodeFence ..) (by decide)
theorem fenceI : Statement .fenceI :=
  mem_listed (opcode_encodeFence ..) (by decide)
theorem ecall : Statement .ecall :=
  mem_listed (opcode_encodeSys ..) (by decide)
theorem ebreak : Statement .ebreak :=
  mem_listed (opcode_encodeSys ..) (by decide)
theorem eret : Statement .eret :=
  mem_listed (opcode_encodeSys ..) (by decide)
theorem rdcycle (rd : XReg) : Statement (.rdcycle rd) :=
  mem_listed (opcode_encodeSys ..) (by decide)
theorem rdcycleh (rd : XReg) : Statement (.rdcycleh rd) :=
  mem_listed (opcode_encodeSys ..) (by decide)
theorem rdtime (rd : XReg) : Statement (.rdtime rd) :=
  mem_listed (opcode_encodeSys ..) (by decide)
theorem rdtimeh (rd : XReg) : Statement (.rdtimeh rd) :=
  mem_listed (opcode_encodeSys ..) (by decide)
theorem rdinstret (rd : XReg) : Statement (.rdinstret rd) :=
  mem_listed (opcode_encodeSys ..) (by decide)
theorem rdinstreth (rd : XReg) : Statement (.rdinstreth rd) :=
  mem_listed (opcode_encodeSys ..) (by decide)
theorem wfi : Statement .wfi :=
  mem_listed (opcode_encodeSys ..) (by decide)
theorem pfi : Statement .pfi :=
  mem_listed (opcode_encodeSys ..) (by decide)

end Sys2Proof.Laws.MajorOpcode
end

