-- ==== Sys2Proof/Tests/Slice0.lean ====
section
/-! SUPPORT. The model's own tests: WellFormed refuses ill-formed terms, the words of spec/95_test_vectors.md decode as they
should, small steps give the results of its vectors, and every statement's hypotheses are met by a concrete state. -/

open Sys2Proof Sys2Proof.Machine

namespace Sys2Proof.Tests

/-! ## WellFormed: one ill-formed term for each check -/

theorem test_wf_jal_to_ra : (Instr.jal 1 0).wellFormed = false := by decide
theorem test_wf_jalr_return : (Instr.jalr 0 1 0).wellFormed = false := by decide
theorem test_wf_beq_zero_zero : (Instr.beq 0 0 8).wellFormed = false := by decide
theorem test_wf_addi_zero : (Instr.addi 0 0 0).wellFormed = false := by decide
theorem test_wf_ori_from_zero : (Instr.ori 5 0 1).wellFormed = false := by decide
theorem test_wf_or_with_zero : (Instr.or 5 6 0).wellFormed = false := by decide
theorem test_wf_fsgnj_same : (Instr.fsgnj 3 1 1).wellFormed = false := by decide
theorem test_wf_fsgnjn_same : (Instr.fsgnjn 3 1 1).wellFormed = false := by decide
theorem test_wf_fsgnjx_same : (Instr.fsgnjx 3 1 1).wellFormed = false := by decide

/-! ## Decoding -/

/-- spec/95_test_vectors.md section 2: E1, E2. -/
theorem test_decode_upper :
    decode 0xFFFFF2B7 = .ok (.lui 5 0xFFFFF) ∧ decode 0x80000297 = .ok (.auipc 5 0x80000) := by
  decide

/-- spec/95_test_vectors.md section 2: E3, E4, E5, E80, E81. -/
theorem test_decode_jumps :
    decode 0x800000EF = .ok (.call 0x80000) ∧ decode 0x7FDFF06F = .ok (.jal 0 0x7FFFE) ∧
    decode 0x800302E7 = .ok (.jalr 5 6 0x800) ∧ decode 0xFFDFF0EF = .ok (.call 0xFFFFE) ∧
    decode 0x00008067 = .ok .ret := by
  decide

/-- spec/95_test_vectors.md section 2: E6, E7, E8, E9, E10, E11, E79. -/
theorem test_decode_branches :
    decode 0x80730063 = .ok (.beq 6 7 0x800) ∧ decode 0x7E731EE3 = .ok (.bne 6 7 0x7FE) ∧
    decode 0x007340E3 = .ok (.blt 6 7 0x400) ∧ decode 0x807350E3 = .ok (.bge 6 7 0xC00) ∧
    decode 0x02736063 = .ok (.bltu 6 7 0x10) ∧ decode 0x00737263 = .ok (.bgeu 6 7 0x2) ∧
    decode 0x00000463 = .ok (.bra 0x4) := by
  decide

/-- spec/95_test_vectors.md section 2: E12, E13, E14, E15, E16, E17. -/
theorem test_decode_loads :
    decode 0x7FF30283 = .ok (.lb 5 6 0x7FF) ∧ decode 0x80031283 = .ok (.lh 5 6 0x800) ∧
    decode 0x00032283 = .ok (.lw 5 6 0x0) ∧ decode 0x00134283 = .ok (.lbu 5 6 0x1) ∧
    decode 0xFFF35283 = .ok (.lhu 5 6 0xFFF) ∧ decode 0x00432287 = .ok (.flw 5 6 0x4) := by
  decide

/-- spec/95_test_vectors.md section 2: E18, E19, E20, E21. -/
theorem test_decode_stores :
    decode 0x7E730FA3 = .ok (.sb 7 6 0x7FF) ∧ decode 0x80731023 = .ok (.sh 7 6 0x800) ∧
    decode 0x00732023 = .ok (.sw 7 6 0x0) ∧ decode 0xFE732E27 = .ok (.fsw 7 6 0xFFC) := by
  decide

/-- spec/95_test_vectors.md section 2: E22, E23, E24, E25, E26, E27, E28, E29, E30, E76, E77. -/
theorem test_decode_immediate_forms :
    decode 0x7FF30293 = .ok (.addi 5 6 0x7FF) ∧ decode 0x80032293 = .ok (.slti 5 6 0x800) ∧
    decode 0x00133293 = .ok (.sltui 5 6 0x1) ∧ decode 0x55534293 = .ok (.xori 5 6 0x555) ∧
    decode 0xAAA36293 = .ok (.ori 5 6 0xAAA) ∧ decode 0x00F37293 = .ok (.andi 5 6 0xF) ∧
    decode 0x01F31293 = .ok (.slli 5 6 31) ∧ decode 0x00135293 = .ok (.srli 5 6 1) ∧
    decode 0x21F35293 = .ok (.srai 5 6 31) ∧ decode 0x00000013 = .ok .nop ∧
    decode 0x7FF06293 = .ok (.ldi 5 0x7FF) := by
  decide

/-- spec/95_test_vectors.md section 2: E31, E32, E33, E34, E35, E36, E37, E38, E39, E40, E41, E78. -/
theorem test_decode_register_forms :
    decode 0x01DF0FB3 = .ok (.add 31 30 29) ∧ decode 0x403100B3 = .ok (.sub 1 2 3) ∧
    decode 0x027302B3 = .ok (.mul 5 6 7) ∧ decode 0x007312B3 = .ok (.sll 5 6 7) ∧
    decode 0x007322B3 = .ok (.slt 5 6 7) ∧ decode 0x007332B3 = .ok (.sltu 5 6 7) ∧
    decode 0x007342B3 = .ok (.xor 5 6 7) ∧ decode 0x007352B3 = .ok (.srl 5 6 7) ∧
    decode 0x407352B3 = .ok (.sra 5 6 7) ∧ decode 0x007362B3 = .ok (.or 5 6 7) ∧
    decode 0x007372B3 = .ok (.and 5 6 7) ∧ decode 0x000362B3 = .ok (.mov 5 6) := by
  decide

/-- spec/95_test_vectors.md section 2: E42, E43, E44, E45, E46, E47, E48. -/
theorem test_decode_float_arithmetic :
    decode 0x01DF4FD3 = .ok (.fadd 31 30 29 4) ∧ decode 0x0820F1D3 = .ok (.fsub 3 1 2 7) ∧
    decode 0x1020B1D3 = .ok (.fmul 3 1 2 3) ∧ decode 0x1820A1D3 = .ok (.fdiv 3 1 2 2) ∧
    decode 0x282081D3 = .ok (.fmin 3 1 2) ∧ decode 0x282091D3 = .ok (.fmax 3 1 2) ∧
    decode 0x580091D3 = .ok (.fsqrt 3 1 1) := by
  decide

/-- spec/95_test_vectors.md section 2: E49, E50, E51, E82, E83, E84. -/
theorem test_decode_sign_injection :
    decode 0x802081D3 = .ok (.fsgnj 3 1 2) ∧ decode 0x802091D3 = .ok (.fsgnjn 3 1 2) ∧
    decode 0x8020A1D3 = .ok (.fsgnjx 3 1 2) ∧ decode 0x801081D3 = .ok (.fmov 3 1) ∧
    decode 0x801091D3 = .ok (.fneg 3 1) ∧ decode 0x8010A1D3 = .ok (.fabs 3 1) := by
  decide

/-- spec/95_test_vectors.md section 2: E52, E53, E54, E55, E56, E57, E58, E59, E60, E61. -/
theorem test_decode_float_to_integer_and_back :
    decode 0xA020A2D3 = .ok (.feq 5 1 2) ∧ decode 0xA02092D3 = .ok (.flt 5 1 2) ∧
    decode 0xA02082D3 = .ok (.fle 5 1 2) ∧ decode 0xC00092D3 = .ok (.fcvtWS 5 1 1) ∧
    decode 0xC01082D3 = .ok (.fcvtWuS 5 1 0) ∧ decode 0xC80301D3 = .ok (.fcvtSW 3 6 0) ∧
    decode 0xC81371D3 = .ok (.fcvtSWu 3 6 7) ∧ decode 0xE00082D3 = .ok (.fmvXS 5 1) ∧
    decode 0xE00092D3 = .ok (.fclass 5 1) ∧ decode 0xF00301D3 = .ok (.fmvSX 3 6) := by
  decide

/-- spec/95_test_vectors.md section 2: E62, E63, E64. -/
theorem test_decode_fences :
    decode 0x0FF0000F = .ok (.fence 15 15) ∧ decode 0x0310000F = .ok (.fence 3 1) ∧
    decode 0x0000100F = .ok .fenceI := by
  decide

/-- spec/95_test_vectors.md section 2: E65, E66, E67, E68, E69, E70, E71, E72, E73, E74, E75. -/
theorem test_decode_system :
    decode 0x00000073 = .ok .ecall ∧ decode 0x00100073 = .ok .ebreak ∧
    decode 0x10000073 = .ok .eret ∧ decode 0x10100073 = .ok .wfi ∧
    decode 0x10300073 = .ok .pfi ∧ decode 0xC00012F3 = .ok (.rdcycle 5) ∧
    decode 0xC8001FF3 = .ok (.rdcycleh 31) ∧ decode 0xC01012F3 = .ok (.rdtime 5) ∧
    decode 0xC81012F3 = .ok (.rdtimeh 5) ∧ decode 0xC02012F3 = .ok (.rdinstret 5) ∧
    decode 0xC8201073 = .ok (.rdinstreth 0) := by
  decide

/-- spec/95_test_vectors.md section 3: words that are no instruction. -/
theorem test_unlisted_words :
    ([0x00000000, 0xFFFFFFFF, 0x00008082, 0x40435293, 0x027342B3, 0x027312B3, 0x00003283, 0x00733023, 0x00732463, 0x000310E7,
      0x00001007, 0x20208153, 0xD0030153, 0x022081D3, 0x581081D3, 0xA020B2D3, 0xC02092D3, 0xE000A2D3, 0x1000000F, 0x0000200F,
      0x0003000F, 0xC00022F3, 0x10500073, 0x30200073, 0x10200073, 0x800012F3, 0x30001073, 0x00000173, 0x00008073, 0x0000002B] : List Word).all (fun w => !(decode w).toBool) = true := by
  decide +kernel

/-- R62: a word's least significant byte lies at the lowest address; fewer than four bytes are no instruction. -/
theorem test_decode_bytes :
    decodeBytes [0xB3, 0x00, 0x31, 0x40] = .ok (.sub 1 2 3) ∧ decodeBytes [0xB3, 0x00, 0x31] = .error .truncated := by
  decide

/-! ## Small states -/

/-- User mode at 0x1000, with x6, x7, f1 and f2 given. -/
def user (x6 x7 f1 f2 : Word) : State :=
  (((State.setX { State.reset with mode := .user, pcU := 0x1000, pcM := 0xFFFC0110 } 6 x6).setX 7 x7).setFp 1 f1).setFp 2 f2

/-- The same with some memory bytes. -/
def userMem (x6 x7 : Word) (mem : Memory) : State := { user x6 x7 0 0 with mem := mem }

/-- Machine mode at 0xFFFC0100, user program counter 0x1000. -/
def machine : State := { State.reset with pcU := 0x1000 }

/-- What a next state shows. -/
def after {α : Type} (r : Result) (g : State → α) : Option α :=
  match r with
  | .next t => some (g t)
  | _ => none

/-- Whether there is a next state. -/
def goesOn : Result → Bool
  | .next _ => true
  | _ => false

/-- Whether a byte is read. -/
def goesOnByte : Host.Outcome Byte Fault Refusal → Bool
  | .next _ => true
  | _ => false

theorem exists_next {r : Result} (h : goesOn r = true) : ∃ t, r = .next t := by
  cases r with
  | next t => exact ⟨t, rfl⟩
  | fault e => cases h
  | refused e => cases h

/-- What an instruction leaves in x5, and the program counter. -/
def x5pc (i : Instr) (s : State) : Option (Word × Word) := after (exec i s) fun t => (t.x 5, t.pc)

/-- What an instruction leaves in f3, and the flags. -/
def f3flags (i : Instr) (s : State) : Option (Word × FFlags) := after (exec i s) fun t => (t.fp 3, t.fflags)

/-! ## Integer instructions (section 4 of the vectors) -/

/-- I1, I3. -/
theorem test_add :
    x5pc (.add 5 6 7) (user 0x7FFFFFFF 1 0 0) = some (0x80000000, 0x1004) ∧
    x5pc (.add 5 5 5) ((user 0 0 0 0).setX 5 0x80000000) = some (0, 0x1004) := by decide
/-- I4. -/
theorem test_add_to_x0 : after (exec (.add 0 6 7) (user 1 2 0 0)) (fun t => (t.x 0, t.xU)) =
    some (0, (user 1 2 0 0).xU) := by decide
/-- I5. -/
theorem test_sub : x5pc (.sub 5 6 7) (user 0 1 0 0) = some (0xFFFFFFFF, 0x1004) := by decide
/-- I11. -/
theorem test_mul : x5pc (.mul 5 6 7) (user 0x12345678 0x9ABCDEF0 0 0) = some (0x242D2080, 0x1004) := by decide
/-- I13, I14. -/
theorem test_addi :
    x5pc (.addi 5 6 0x7FF) (user 0x7FFFF801 0 0 0) = some (0x80000000, 0x1004) ∧
    x5pc (.addi 5 6 0x800) (user 0x800 0 0 0) = some (0, 0x1004) := by decide
/-- I16, I18. -/
theorem test_slt_sltu :
    x5pc (.slt 5 6 7) (user 0x80000000 0x7FFFFFFF 0 0) = some (1, 0x1004) ∧
    x5pc (.sltu 5 6 7) (user 0x80000000 0x7FFFFFFF 0 0) = some (0, 0x1004) := by decide
/-- I21, I24. -/
theorem test_slti_sltui :
    x5pc (.slti 5 6 0x800) (user 0xFFFFF7FF 0 0 0) = some (1, 0x1004) ∧
    x5pc (.sltui 5 6 0x800) (user 0xFFFFF7FF 0 0 0) = some (1, 0x1004) := by decide
/-- I27 to I29. -/
theorem test_logical_immediates :
    x5pc (.xori 5 6 0x7FF) (user 0xFFFFFFFF 0 0 0) = some (0xFFFFF800, 0x1004) ∧
    x5pc (.ori 5 6 0x800) (user 0xFF 0 0 0) = some (0xFFFFF8FF, 0x1004) ∧
    x5pc (.andi 5 6 0x800) (user 0xFFFFFFFF 0 0 0) = some (0xFFFFF800, 0x1004) := by decide
/-- I32, I33, I35, I37. -/
theorem test_immediate_shifts :
    x5pc (.slli 5 6 31) (user 0x89ABCDEF 0 0 0) = some (0x80000000, 0x1004) ∧
    x5pc (.srli 5 6 31) (user 0x89ABCDEF 0 0 0) = some (1, 0x1004) ∧
    x5pc (.srai 5 6 31) (user 0x89ABCDEF 0 0 0) = some (0xFFFFFFFF, 0x1004) ∧
    x5pc (.srai 5 6 1) (user 0x80000001 0 0 0) = some (0xC0000000, 0x1004) := by decide
/-- I38 to I42: the amount is the low five bits. -/
theorem test_register_shifts :
    x5pc (.sll 5 6 7) (user 0x89ABCDEF 0x20 0 0) = some (0x89ABCDEF, 0x1004) ∧
    x5pc (.sll 5 6 7) (user 0x89ABCDEF 0xFFFFFFFF 0 0) = some (0x80000000, 0x1004) ∧
    x5pc (.srl 5 6 7) (user 0x89ABCDEF 0x24 0 0) = some (0x089ABCDE, 0x1004) ∧
    x5pc (.sra 5 6 7) (user 0x89ABCDEF 0x3F 0 0) = some (0xFFFFFFFF, 0x1004) := by decide
/-- I43 to I45, and the MOV and LDI of rules R155 and R154. -/
theorem test_logical_and_moves :
    x5pc (.xor 5 6 6) (user 0xDEADBEEF 0 0 0) = some (0, 0x1004) ∧
    x5pc (.or 5 6 7) (user 0xF0 0x0F 0 0) = some (0xFF, 0x1004) ∧
    x5pc (.and 5 6 0) (user 0xDEADBEEF 0 0 0) = some (0, 0x1004) ∧
    x5pc (.mov 5 6) (user 0xDEADBEEF 0 0 0) = some (0xDEADBEEF, 0x1004) ∧
    x5pc (.ldi 5 0xFFF) (user 0 0 0 0) = some (0xFFFFFFFF, 0x1004) ∧
    x5pc .nop (user 1 2 0 0) = some (0, 0x1004) := by decide
/-- I47, I52, I50. -/
theorem test_upper :
    x5pc (.lui 5 0x80000) (user 0 0 0 0) = some (0x80000000, 0x1004) ∧
    x5pc (.auipc 5 0xFFFFF) { user 0 0 0 0 with pcU := 0x1004 } = some (4, 0x1008) ∧
    x5pc (.auipc 5 0x00040) { user 0 0 0 0 with pcU := 0xFFFC0100 } = some (0x100, 0xFFFC0104) := by decide

/-! ## Control transfer (section 5) -/

/-- The branches of the vectors' condition table, at 0x1000 with displacement 64: which of them are taken. -/
def taken (x6 x7 : Word) : List (Option Bool) :=
  [.beq 6 7 32, .bne 6 7 32, .blt 6 7 32, .bge 6 7 32, .bltu 6 7 32, .bgeu 6 7 32].map fun i : Instr =>
    after (exec i (user x6 x7 0 0)) fun t => t.pc == 0x1040

/-- The six rows of the condition table. -/
theorem test_branch_conditions :
    taken 0 0 = [some true, some false, some false, some true, some false, some true] ∧
    taken 1 2 = [some false, some true, some true, some false, some true, some false] ∧
    taken 0xFFFFFFFF 1 = [some false, some true, some true, some false, some false, some true] ∧
    taken 0x80000000 0x7FFFFFFF = [some false, some true, some true, some false, some false, some true] ∧
    taken 0x7FFFFFFF 0x80000000 = [some false, some true, some false, some true, some true, some false] ∧
    taken 0xFFFFFFFF 0xFFFFFFFE = [some false, some true, some false, some true, some false, some true] := by decide
/-- B2, B4, B5 (BRA is B2's own word). -/
theorem test_branch_targets :
    x5pc (.bra 0x7FE) { user 0 0 0 0 with pcU := 0xFFFFF800 } = some (0, 0x7FC) ∧
    exec (.bra 3) (user 0 0 0 0) = .refused (.misalignedBranchTarget 0x1006) ∧
    x5pc (.bne 0 0 3) (user 0 0 0 0) = some (0, 0x1004) := by
  exact ⟨by decide, rfl, by decide⟩
/-- B7, B8, B10 (as CALL). -/
theorem test_jal :
    after (exec (.call 0x7FFFF) (user 0 0 0 0)) (fun t => (t.pc, t.x 1)) = some (0x100FFC, 0x1004) ∧
    x5pc (.jal 5 1) (user 0 0 0 0) = some (0x1004, 0x1000) ∧
    after (exec (.call 4) { user 0 0 0 0 with pcU := 0xFFFFFFFC }) (fun t => (t.pc, t.x 1)) = some (4, 0) := by decide
/-- B12, B13, B15, and RET of rule R173. -/
theorem test_jalr :
    after (exec (.jalr 1 1 8) ((user 0 0 0 0).setX 1 0x3000)) (fun t => (t.pc, t.x 1)) = some (0x3008, 0x1004) ∧
    after (exec (.jalr 0 6 0x7FF) (user 0xFFFFFFFF 0 0 0)) (fun t => (t.pc, t.x 0)) = some (0x7FC, 0) ∧
    after (exec (.jalr 6 6 0) (user 0x2003 0 0 0)) (fun t => (t.pc, t.x 6)) = some (0x2000, 0x1004) ∧
    after (exec .ret ((user 0 0 0 0).setX 1 0x2007)) (fun t => (t.pc, t.x 1)) = some (0x2004, 0x2007) := by decide
/-- B16. -/
theorem test_fences :
    after (exec (.fence 15 15) (user 1 2 3 4)) id = some { user 1 2 3 4 with pcU := 0x1004 } ∧
    after (exec .fenceI (user 1 2 3 4)) id = some { user 1 2 3 4 with pcU := 0x1004 } := by decide

/-! ## Loads and stores (section 6) -/

/-- The vectors' load bytes at 0x2000. -/
def loadBytes : Memory :=
  [(0x2000, 0x80), (0x2001, 0x7F), (0x2002, 0xFF), (0x2003, 0x00), (0x2004, 0x01), (0x2005, 0x02), (0x2006, 0x03),
   (0x2007, 0x84)]

/-- M1, M4, M6, M8, M9. -/
theorem test_narrow_loads :
    x5pc (.lb 5 6 0) (userMem 0x2000 0 loadBytes) = some (0xFFFFFF80, 0x1004) ∧
    x5pc (.lbu 5 6 2) (userMem 0x2000 0 loadBytes) = some (0xFF, 0x1004) ∧
    x5pc (.lh 5 6 1) (userMem 0x2000 0 loadBytes) = some (0xFFFFFF7F, 0x1004) ∧
    x5pc (.lh 5 6 6) (userMem 0x2000 0 loadBytes) = some (0xFFFF8403, 0x1004) ∧
    x5pc (.lhu 5 6 1) (userMem 0x2000 0 loadBytes) = some (0xFF7F, 0x1004) := by decide
/-- M13, M16, M17, M18. -/
theorem test_word_loads :
    x5pc (.lw 5 6 3) (userMem 0x2000 0 loadBytes) = some (0x03020100, 0x1004) ∧
    after (exec (.lw 6 6 4) (userMem 0x2000 0 loadBytes)) (fun t => t.x 6) = some 0x84030201 ∧
    after (exec (.flw 4 6 4) (userMem 0x2000 0 loadBytes)) (fun t => t.fp 4) = some 0x84030201 ∧
    after (exec (.flw 0 6 0) (userMem 0x2000 0 loadBytes)) (fun t => t.fp 0) = some 0 := by decide
/-- M19: an access wraps at the top of the address space. -/
theorem test_load_wraps :
    x5pc (.lw 5 0 0xFFE) (userMem 0 0 [(0, 0x33), (1, 0x44), (0xFFFFFFFE, 0x11), (0xFFFFFFFF, 0x22)]) =
      some (0x44332211, 0x1004) := by decide

/-- The vectors' store bytes: eight bytes EE at 0x3000. -/
def storeBytes : Memory := (List.range 8).map fun k => (0x3000 + k, 0xEE)

/-- The bytes at 0x3000 after an instruction. -/
def stored (i : Instr) (s : State) : Option (List Byte) :=
  after (exec i { s with mem := storeBytes }) fun t => t.mem.map fun c => c.2

/-- M21, M22. -/
theorem test_narrow_stores :
    stored (.sb 7 6 0) (user 0x3001 0x123456AB 0 0) = some [0xEE, 0xAB, 0xEE, 0xEE, 0xEE, 0xEE, 0xEE, 0xEE] ∧
    stored (.sh 7 6 1) (user 0x3000 0x1234ABCD 0 0) = some [0xEE, 0xCD, 0xAB, 0xEE, 0xEE, 0xEE, 0xEE, 0xEE] := by decide
/-- M23, M26 (with f1), M28. -/
theorem test_word_stores :
    stored (.sw 7 6 3) (user 0x3000 0xA1B2C3D4 0 0) = some [0xEE, 0xEE, 0xEE, 0xD4, 0xC3, 0xB2, 0xA1, 0xEE] ∧
    stored (.fsw 1 6 1) (user 0x3000 0 0x7FC00001 0) = some [0xEE, 0x01, 0x00, 0xC0, 0x7F, 0xEE, 0xEE, 0xEE] ∧
    after (exec (.sw 7 0 0xFFF) (user 0 0xA1B2C3D4 0 0)) (fun t => t.mem) =
      some [(0, 0xC3), (1, 0xB2), (2, 0xA1), (0xFFFFFFFF, 0xD4)] := by decide
/-- Log 2 and log 6: a byte without a value, a store that reaches the rom. -/
theorem test_memory_stops :
    exec (.lw 5 6 5) (userMem 0x2000 0 loadBytes) = .fault (.unwrittenByte 0x2008) ∧
    exec (.sh 7 6 0) (user 0xFFFBFFFF 1 0 0) = .refused (.storeToRom 0xFFFC0000) := ⟨rfl, rfl⟩

/-- A platform with each class of R69: a device of 16 bytes at 0x4000, nothing at 0x5000, the rom; its fetches are not
coherent. -/
def board : Platform := ⟨[⟨0x4000, 16, .device⟩, ⟨0x5000, 4, .vacant⟩, ⟨0xFFFC0000, 0x40000, .rom⟩], .ram, false⟩

/-- R68, R69: a device sees an aligned access as one bus cycle and an unaligned one as two, of which the second falls
beside the device here. -/
theorem test_device_reads :
    ((user 0 0 0 0).afterReadOn board 0x400C 4).devices = [.read 0x400C 4] ∧
    ((user 0 0 0 0).afterReadOn board 0x4009 4).devices = [.read 0x400C 1, .read 0x4009 3] ∧
    ((user 0 0 0 0).afterReadOn board 0x400F 2).devices = [.read 0x400F 1] ∧
    ((user 0 0 0 0).afterReadOn board 0x4010 2).devices = [] := by decide
/-- R64, R69: only the low byte of the register reaches the device; memory keeps what is not its own. R76: the bytes
stored are recorded, the device's among them. -/
theorem test_device_writes :
    after (memWriteOn board (user 0 0 0 0) 0x400F 1 0xA1B2C3D4) (fun t => (t.mem, t.devices, t.stored)) =
      some ([], [.write 0x400F [0xD4]], [0x400F]) ∧
    after (memWriteOn board (user 0 0 0 0) 0x400E 4 0xA1B2C3D4) (fun t => (t.mem, t.devices)) =
      some ([(0x4010, 0xB2), (0x4011, 0xA1)], [.write 0x400E [0xD4, 0xC3]]) ∧
    after (memWriteOn board { user 0 0 0 0 with pcU := 0x4004 } 0x4006 1 0) (fun t => fetchOn board t) =
      some (.refused (.fetchOfStoredByte 0x4006)) := ⟨by decide, by decide, rfl⟩
/-- R69: a vacant address is refused, for loads and stores. R76: so is the fetch of a byte the hart has stored to. -/
theorem test_platform_refusals :
    memReadOn board (user 0 0 0 0) 0x5003 1 = .refused (.vacantAddress 0x5003) ∧
    memWriteOn board (user 0 0 0 0) 0x4FFF 2 0 = .refused (.vacantAddress 0x5000) ∧
    after (memWriteOn board (user 0 0 0 0) 0x1002 2 0) (fun t => fetchOn board t) =
      some (.refused (.fetchOfStoredByte 0x1002)) := ⟨rfl, rfl, rfl⟩

/-! ## Floating point (section 7) -/

/-- F1 under each mode. -/
theorem test_fadd :
    [0, 1, 2, 3, 4].map (fun rm => f3flags (.fadd 3 1 2 rm) (user 0 0 0x3F800000 0x33800000)) =
      [some (0x3F800000, { nx := true }), some (0x3F800000, { nx := true }), some (0x3F800000, { nx := true }),
       some (0x3F800001, { nx := true }), some (0x3F800001, { nx := true })] := by decide +kernel
/-- F9, F8 under RDN. -/
theorem test_fsub :
    f3flags (.fsub 3 1 2 0) (user 0 0 0x00800000 1) = some (0x007FFFFF, { uf := true }) ∧
    f3flags (.fsub 3 1 2 2) (user 0 0 0x3F800000 0x3F800000) = some (0x80000000, {}) := by decide +kernel
/-- F11 under RTZ and RDN, F13 under RUP, F14 under RNE. -/
theorem test_fmul :
    f3flags (.fmul 3 1 2 1) (user 0 0 0xFF7FFFFF 0x40000000) = some (0xFF7FFFFF, { nx := true }) ∧
    f3flags (.fmul 3 1 2 2) (user 0 0 0xFF7FFFFF 0x40000000) = some (0xFF800000, { nx := true, of := true }) ∧
    f3flags (.fmul 3 1 2 3) (user 0 0 1 0x3F000000) = some (1, { nx := true, uf := true }) ∧
    f3flags (.fmul 3 1 2 0) (user 0 0 0x3F800001 0x3F800001) = some (0x3F800002, { nx := true }) := by decide +kernel
/-- F15 under RNE and RTZ, F33. -/
theorem test_fdiv :
    f3flags (.fdiv 3 1 2 0) (user 0 0 0x3F800000 0x40400000) = some (0x3EAAAAAB, { nx := true }) ∧
    f3flags (.fdiv 3 1 2 1) (user 0 0 0x3F800000 0x40400000) = some (0x3EAAAAAA, { nx := true }) ∧
    f3flags (.fdiv 3 1 2 0) (user 0 0 0x3F800000 0x80000000) = some (0xFF800000, { dz := true }) := by decide +kernel
/-- F41 under RNE and RUP, F43. -/
theorem test_fsqrt :
    f3flags (.fsqrt 3 1 0) (user 0 0 0x40000000 0) = some (0x3FB504F3, { nx := true }) ∧
    f3flags (.fsqrt 3 1 3) (user 0 0 0x40000000 0) = some (0x3FB504F4, { nx := true }) ∧
    f3flags (.fsqrt 3 1 0) (user 0 0 0x80000000 0) = some (0x80000000, { dz := true }) := by decide +kernel
/-- F19, F34, F44: a Nan is delivered, of a pattern the model leaves free. -/
theorem test_nan_results :
    after (exec (.fadd 3 1 2 0) (user 0 0 0x7F800000 0xFF800000)) (fun t => isNan (t.fp 3)) =
      some (isNan (nanResult .add 0x7F800000 0xFF800000)) ∧
    after (exec (.fdiv 3 1 2 0) (user 0 0 0 0)) (fun t => t.fflags) =
      some (divFlags { bits := nanResult .div 0 0 } 0 0) := ⟨rfl, rfl⟩
/-- Rules R224, R225: their examples, the two zeros, one Nan. -/
theorem test_fmin_fmax :
    f3flags (.fmin 3 1 2) (user 0 0 0xBF800000 0x40000000) = some (0xBF800000, {}) ∧
    f3flags (.fmax 3 1 2) (user 0 0 0x80000000 0) = some (0, {}) ∧
    f3flags (.fmax 3 1 2) (user 0 0 0x7FC00000 0xBF800000) = some (0xBF800000, {}) := by decide +kernel
/-- Rules R227 to R232: their examples. -/
theorem test_sign_injection :
    f3flags (.fsgnj 3 1 2) (user 0 0 0x3F800000 0xC0000000) = some (0xBF800000, {}) ∧
    f3flags (.fsgnjn 3 1 2) (user 0 0 0x3F800000 0xC0000000) = some (0x3F800000, {}) ∧
    f3flags (.fsgnjx 3 1 2) (user 0 0 0xBF800000 0xC0000000) = some (0x3F800000, {}) ∧
    f3flags (.fmov 3 1) (user 0 0 0x7F800001 0) = some (0x7F800001, {}) ∧
    f3flags (.fneg 3 1) (user 0 0 0x3F800000 0) = some (0xBF800000, {}) ∧
    f3flags (.fabs 3 1) (user 0 0 0xBFC00000 0) = some (0x3FC00000, {}) := by decide
/-- Rules R233 to R235: zeros, Nans, signs. -/
theorem test_compares :
    x5pc (.feq 5 1 2) (user 0 0 0 0x80000000) = some (1, 0x1004) ∧
    x5pc (.feq 5 1 1) (user 0 0 0x7FC00000 0) = some (0, 0x1004) ∧
    x5pc (.flt 5 1 2) (user 0 0 0xBF800000 0) = some (1, 0x1004) ∧
    x5pc (.flt 5 1 2) (user 0 0 0x80000000 0) = some (0, 0x1004) ∧
    x5pc (.fle 5 1 2) (user 0 0 0xFF800000 0xFF7FFFFF) = some (1, 0x1004) := by decide +kernel
/-- Rules R236, R237: -1.5 under RNE and RTZ, the ends of the ranges. -/
theorem test_float_to_integer :
    x5pc (.fcvtWS 5 1 0) (user 0 0 0xBFC00000 0) = some (0xFFFFFFFE, 0x1004) ∧
    x5pc (.fcvtWS 5 1 1) (user 0 0 0xBFC00000 0) = some (0xFFFFFFFF, 0x1004) ∧
    x5pc (.fcvtWS 5 1 0) (user 0 0 0x4F000000 0) = some (0x7FFFFFFF, 0x1004) ∧
    x5pc (.fcvtWuS 5 1 0) (user 0 0 0x4F000000 0) = some (0x80000000, 0x1004) ∧
    x5pc (.fcvtWuS 5 1 0) (user 0 0 0xBF800000 0) = some (0, 0x1004) := by decide +kernel
/-- Rules R238, R239: their examples and corner cases. -/
theorem test_integer_to_float :
    f3flags (.fcvtSW 3 6 0) (user 0xFFFFFFFF 0 0 0) = some (0xBF800000, {}) ∧
    f3flags (.fcvtSW 3 6 1) (user 0x7FFFFFFF 0 0 0) = some (0x4EFFFFFF, { nx := true }) ∧
    f3flags (.fcvtSWu 3 6 0) (user 0xFFFFFFFF 0 0 0) = some (0x4F800000, { nx := true }) ∧
    f3flags (.fcvtSWu 3 6 7) (user 300 0 0 0) = some (0x43960000, {}) := by decide +kernel
/-- Rules R240 to R242. -/
theorem test_moves_and_class :
    x5pc (.fmvXS 5 1) (user 0 0 0x7F800001 0) = some (0x7F800001, 0x1004) ∧
    f3flags (.fmvSX 3 6) (user 0x7F800001 0 0 0) = some (0x7F800001, {}) ∧
    x5pc (.fclass 5 0) (user 0 0 0 0) = some (0x10, 0x1004) ∧
    x5pc (.fclass 5 1) (user 0 0 0xBF800000 0) = some (2, 0x1004) := by decide +kernel

/-! ## Machine mode (rules R260 to R272, the trace of spec/60_exceptions.md section 7) -/

/-- Rules R260, R261: their examples. -/
theorem test_environment_calls :
    after (exec .ecall (user 1 2 0 0)) (fun t => (t.mode, t.pcU, t.pie, t.ie, t.pc)) =
      some (.machine, 0x1004, false, false, 0xFFFC0110) ∧
    after (exec .ebreak { user 1 2 0 0 with ie := true }) (fun t => (t.mode, t.pcU, t.pie, t.ie, t.x 6)) =
      some (.machine, 0x1004, true, false, 0) := by decide
/-- Rule R262: its example. -/
theorem test_eret :
    after (exec .eret { machine with pie := true, pcM := 0xFFFC010C }) (fun t => (t.mode, t.pcM, t.ie, t.pc)) =
      some (.user, 0xFFFC0110, true, 0x1000) := by decide
/-- Rule R263: its example, with and without an interrupt. -/
theorem test_pfi :
    after (exec .pfi { user 0 0 0 0 with irqs := [true] }) (fun t => (t.mode, t.pcU, t.pie, t.ie)) =
      some (.machine, 0x1004, false, false) ∧
    after (exec .pfi (user 0 0 0 0)) (fun t => (t.mode, t.pcU)) = some (.user, 0x1004) := by decide
/-- Rule R264: a wait, its end with interrupts disabled, and its end with interrupts enabled. -/
theorem test_wfi :
    after (exec .wfi (user 0 0 0 0)) (fun t => (t.waiting, t.pcU)) = some (true, 0x1000) ∧
    after (step { user 0 0 0 0 with waiting := true, irqs := [true] }) (fun t => (t.waiting, t.mode, t.pcU, t.instret)) =
      some (false, .user, 0x1004, 1) ∧
    after (step { user 0 0 0 0 with waiting := true, ie := true, irqs := [true] }) (fun t => (t.mode, t.pcU, t.pie)) =
      some (.machine, 0x1004, true) := by decide
/-- Rules R283, R287: an interrupt is taken before the instruction at pcU. -/
theorem test_interrupt :
    after (step { user 0 0 0 0 with ie := true, irqs := [true] }) (fun t => (t.mode, t.pcU, t.pie, t.ie, t.instret)) =
      some (.machine, 0x1000, true, false, 0) := by decide
/-- Rules R265 to R270. -/
theorem test_counter_reads :
    x5pc (.rdcycle 5) { user 0 0 0 0 with cycle := 0x1122334455667788 } = some (0x55667788, 0x1004) ∧
    x5pc (.rdcycleh 5) { user 0 0 0 0 with cycle := 0x1122334455667788 } = some (0x11223344, 0x1004) ∧
    x5pc (.rdtime 5) { user 0 0 0 0 with time := 0x1122334455667788 } = some (0x55667788, 0x1004) ∧
    x5pc (.rdtimeh 5) { user 0 0 0 0 with time := 0x1122334455667788 } = some (0x11223344, 0x1004) ∧
    x5pc (.rdinstret 5) { user 0 0 0 0 with instret := 0x1122334455667788 } = some (0x55667788, 0x1004) ∧
    x5pc (.rdinstreth 5) { user 0 0 0 0 with instret := 0x1122334455667788 } = some (0x11223344, 0x1004) := by decide
/-- The first step of a rom that begins with ERET, placed where reset fetches (rule R320). -/
theorem test_first_step :
    after (step (State.reset.withFetchWord 32 0x10000073)) (fun t => (t.mode, t.pcM, t.ie, t.instret)) =
      some (.user, 0xFFFC0104, false, 1) := by decide

/-! ## Witnesses: states and operands that meet the hypotheses of each statement, clause by clause -/

/-- The word ADD x5, x6, x7 at the program counter of a user-mode state. -/
def ready : State := (user 3 4 0 0).withFetchWord 32 0x007302B3

/-- An ERET at the program counter after reset. -/
def readyEret : State := State.reset.withFetchWord 32 0x10000073

theorem witness_DecodeEncodeRoundTrip : (Instr.add 5 6 7).wellFormed = true := by decide
theorem witness_EncodeDecodeRoundTrip : decode 0x007302B3 = .ok (.add 5 6 7) := by decide
theorem witness_DecodeMatchesTable : (⟨"FENCE", 0xF00FFFFF, 0x0000000F⟩ : TableRow) ∈ tableRows := by decide
theorem witness_TableRowsDisjoint :
    (⟨"LUI", 0x0000007F, 0x00000037⟩ : TableRow) ∈ tableRows ∧
    (⟨"LUI", 0x0000007F, 0x00000037⟩ : TableRow).matches 0xFFFFF2B7 = true := by decide
theorem witness_StepRunsDecoded :
    ready.waiting = false ∧ ready.interruptReady = false ∧ Aligned ready.pc ∧
    ([0xB3, 0x02, 0x73, 0x00] : List Byte).length = 4 ∧ BytesAt ready ready.pc [0xB3, 0x02, 0x73, 0x00] ∧
    decodeBytes [0xB3, 0x02, 0x73, 0x00] = .ok (.add 5 6 7) :=
  ⟨rfl, by decide, by decide, rfl, by unfold BytesAt; decide, by decide⟩
theorem witness_PlacedInstructionIsExecuted : (Instr.add 5 6 7).wellFormed = true ∧ Aligned (user 3 4 0 0).pc := by
  decide
theorem witness_UnlistedWordRefused :
    ((user 3 4 0 0).withFetchWord 32 0).waiting = false ∧
    ((user 3 4 0 0).withFetchWord 32 0).interruptReady = false ∧
    fetch ((user 3 4 0 0).withFetchWord 32 0) = .next 0 ∧ ∀ r ∈ tableRows, r.matches 0 = false :=
  ⟨rfl, by decide, by rfl, by decide⟩
theorem witness_ProgramCounterPerMode :
    (∃ t, step ready = .next t) ∧ ready.mode = .user ∧ (∃ t, step readyEret = .next t) ∧ readyEret.mode = .machine ∧
    Executes readyEret .eret :=
  ⟨exists_next (by decide), by decide, exists_next (by decide), by decide, rfl, by decide, 0x10000073, by rfl, by decide⟩
theorem witness_OtherContextIsolated :
    (∃ t, step ready = .next t) ∧ ready.mode = .user ∧ (∃ t, step readyEret = .next t) ∧ readyEret.mode = .machine :=
  ⟨exists_next (by decide), by decide, exists_next (by decide), by decide⟩
/-- Each condition of the branches holds, with an aligned target, at both ends of the displacement's range. -/
theorem witness_BranchForms :
    Aligned (branchTarget (user 1 1 0 0) 0x800) ∧ (user 1 1 0 0).x 6 = (user 1 1 0 0).x 7 ∧
    ((user 1 1 0 0).x 7).toInt ≤ ((user 1 1 0 0).x 6).toInt ∧ ((user 1 1 0 0).x 7).toNat ≤ ((user 1 1 0 0).x 6).toNat ∧
    Aligned (branchTarget (user 1 2 0 0) 0x7FE) ∧ (user 1 2 0 0).x 6 ≠ (user 1 2 0 0).x 7 ∧
    ((user 1 2 0 0).x 6).toInt < ((user 1 2 0 0).x 7).toInt ∧
    ((user 1 2 0 0).x 6).toNat < ((user 1 2 0 0).x 7).toNat := by decide
theorem witness_MisalignedTransferRefused :
    ({ user 1 1 0 0 with pcU := 2 } : State).waiting = false ∧
    ({ user 1 1 0 0 with pcU := 2 } : State).interruptReady = false ∧
    ¬ Aligned ({ user 1 1 0 0 with pcU := 2 } : State).pc ∧
    ¬ Aligned (branchTarget (user 1 1 0 0) 1) ∧ (user 1 1 0 0).x 6 = (user 1 1 0 0).x 7 ∧
    ((user 1 1 0 0).x 7).toInt ≤ ((user 1 1 0 0).x 6).toInt ∧ ((user 1 1 0 0).x 7).toNat ≤ ((user 1 1 0 0).x 6).toNat ∧
    ¬ Aligned (branchTarget (user 1 2 0 0) 0x7FF) ∧ (user 1 2 0 0).x 6 ≠ (user 1 2 0 0).x 7 ∧
    ((user 1 2 0 0).x 6).toInt < ((user 1 2 0 0).x 7).toInt ∧
    ((user 1 2 0 0).x 6).toNat < ((user 1 2 0 0).x 7).toNat := by decide
/-- One, two and four readable bytes, the last access reaching the last byte that has a value. -/
theorem witness_LoadForms :
    BytesAt (userMem 0x2007 0 loadBytes) ((userMem 0x2007 0 loadBytes).ea 6 0) [0x84] ∧
    BytesAt (userMem 0x2007 0 loadBytes) ((userMem 0x2007 0 loadBytes).ea 6 0xFFF) [0x03, 0x84] ∧
    BytesAt (userMem 0x2007 0 loadBytes) ((userMem 0x2007 0 loadBytes).ea 6 0xFFD) [0x01, 0x02, 0x03, 0x84] :=
  ⟨by unfold BytesAt; decide, by unfold BytesAt; decide, by unfold BytesAt; decide⟩
/-- Stores that end right below the rom, and one that wraps. -/
theorem witness_StoreForms :
    AllRam ((user 0xFFFBFFFF 0 0 0).ea 6 0) 1 ∧ AllRam ((user 0xFFFBFFFF 0 0 0).ea 6 0xFFF) 2 ∧
    AllRam ((user 0xFFFBFFFF 0 0 0).ea 6 0xFFD) 4 ∧ AllRam ((user 0xFFFFFFFE 0 0 0).ea 6 0) 4 := by
  unfold AllRam
  decide
/-- A stored word, read at each of its bytes, its two half-words, as a whole, and fetched. -/
theorem witness_LoadsReadStores :
    (∃ t, exec (.sw 7 6 0) (user 0x1004 0xA1B2C3D4 0 0) = .next t ∧
      (t.ea 6 0 = (user 0x1004 0xA1B2C3D4 0 0).ea 6 0 + BitVec.ofNat 32 0 ∧
        t.ea 6 3 = (user 0x1004 0xA1B2C3D4 0 0).ea 6 0 + BitVec.ofNat 32 3) ∧
      t.ea 6 2 = (user 0x1004 0xA1B2C3D4 0 0).ea 6 0 + 2 ∧ t.ea 6 0 = (user 0x1004 0xA1B2C3D4 0 0).ea 6 0 ∧
      t.pc = (user 0x1004 0xA1B2C3D4 0 0).ea 6 0 ∧ Aligned ((user 0x1004 0xA1B2C3D4 0 0).ea 6 0)) ∧
    (∃ t, exec (.fsw 1 6 0) (user 0x3000 0 0x7FC00001 0) = .next t ∧ t.ea 6 0 = (user 0x3000 0 0x7FC00001 0).ea 6 0) :=
  ⟨⟨_, rfl, by decide⟩, ⟨_, rfl, by decide⟩⟩
/-- The first byte without a value at each offset that the clauses name last. -/
theorem witness_UnwrittenLoadFaults :
    (∀ k ∈ [0, 1, 2, 3], (0x2008 : Word) = (userMem (0x2008 - BitVec.ofNat 32 k) 0 loadBytes).ea 6 0 + BitVec.ofNat 32 k ∧
      regionOf 0x2008 = .ram ∧ (userMem (0x2008 - BitVec.ofNat 32 k) 0 loadBytes).mem.read 0x2008 = none) ∧
    (∀ j < 3, goesOnByte (readByte (userMem 0x2005 0 loadBytes) ((userMem 0x2005 0 loadBytes).ea 6 0 + BitVec.ofNat 32 j)) =
      true) := by decide
theorem witness_StoreToRomRefused :
    (∀ k ∈ [0, 1, 2, 3], (0xFFFC0000 : Word) = (user (0xFFFC0000 - BitVec.ofNat 32 k) 0 0 0).ea 6 0 + BitVec.ofNat 32 k) ∧
    regionOf 0xFFFC0000 = .rom ∧ AllRam ((user 0xFFFBFFFD 0 0 0).ea 6 0) 3 := by
  unfold AllRam
  decide
/-- On the board: ram read, four bytes of a device at a multiple of 4 and across one, a vacant byte behind a device's or a
readable one, a store that reaches the rom or a hole, ram beside a device, and a fetch with and without a stored byte. -/
theorem witness_MemoryParameters :
    (∀ k < 2, (board.region (0x2007 + BitVec.ofNat 32 k) = .ram) ∧
      (userMem 0 0 ((0x2007, 1) :: [(0x2008, 2)])).mem.read (0x2007 + BitVec.ofNat 32 k).toNat ≠ none) ∧
    (∀ k < 4, board.region (0x400C + BitVec.ofNat 32 k) = .device) ∧ (0x400C : Word).toNat % 4 = 0 ∧
    (∀ k < 4, board.region (0x4009 + BitVec.ofNat 32 k) = .device) ∧ (0x4009 : Word).toNat % 4 = 1 ∧
    board.region 0x5000 = .vacant ∧ board.region 0x4FFF = .ram ∧
    board.region 0xFFFC0000 = .rom ∧ board.region 0xFFFBFFFF = .ram ∧
    (∀ k < 4, board.region (0x400E + BitVec.ofNat 32 k) = .ram ∨ board.region (0x400E + BitVec.ofNat 32 k) = .device) ∧
    board.region 0x400F = .device ∧ board.region 0x4010 = .ram ∧ board.ifetchCoherent = false ∧
    platform.ifetchCoherent = true ∧ Aligned (user 0 0 0 0).pc ∧
    (∀ k < 4, (user 0 0 0 0).pc + BitVec.ofNat 32 k ∉ (user 0 0 0 0).stored) ∧
    (user 0 0 0 0).pc + BitVec.ofNat 32 3 ∈ ({ user 0 0 0 0 with stored := [0x1003] } : State).stored ∧
    (∀ j < 3, (user 0 0 0 0).pc + BitVec.ofNat 32 j ∉ ({ user 0 0 0 0 with stored := [0x1003] } : State).stored) := by
  decide
theorem witness_OnlyStoresChangeMemory :
    isStore (.lb 5 6 0) = false ∧ ∃ t, exec (.lb 5 6 0) (userMem 0x2000 0 loadBytes) = .next t :=
  ⟨rfl, exists_next (by decide)⟩
/-- A mode of the instruction's own, and one from `frm`. -/
theorem witness_FloatArithmeticForms :
    roundingOfCode (if (4 : BitVec 3) = 7 then (user 0 0 0x3F800000 0x40000000).frm else 4) = some .rmm ∧
    roundingOfCode (if (7 : BitVec 3) = 7 then ({ user 0 0 0x3F800000 0x40000000 with frm := 2 } : State).frm else 7) =
      some .rdn ∧
    (0x3F800000 : Word) = (user 0 0 0x3F800000 0x40000000).fp 1 ∧
    (0x40000000 : Word) = (user 0 0 0x3F800000 0x40000000).fp 2 := by decide
theorem witness_ConvertForms :
    roundingOfCode (if (0 : BitVec 3) = 7 then (user 3 0 0x3F800000 0).frm else 0) = some .rne := by decide
theorem witness_RoundingModeCodes :
    (5 : BitVec 3) = (if (5 : BitVec 3) = 7 then (user 0 0 0 0).frm else 5) ∧ 5 ≤ (5 : BitVec 3).toNat ∧
    (7 : BitVec 3) = (if (7 : BitVec 3) = 7 then ({ user 0 0 0 0 with frm := 7 } : State).frm else 7) ∧
    5 ≤ (7 : BitVec 3).toNat := by decide
theorem witness_NanInNanOut : isNan 0x7FC00000 = true ∧ isNan 0x7F800001 = true := by decide
/-- Operands for each clause, in its order. -/
theorem witness_SpecialOperands :
    (isNan 0x7F800000 = false ∧ isNan 0xFF800000 = false ∧ isNan 0 = false ∧ isNan 0x7F7FFFFF = false) ∧
    (isInf 0x7F800000 = true ∧ isInf 0xFF800000 = true ∧ fpSign 0x7F800000 ≠ fpSign 0xFF800000) ∧
    (isFinite 0x7F7FFFFF = true ∧ isFinite 0 = true ∧ isZero 0 = true ∧ isZero 0x80000000 = true) ∧
    (isZero 0x7F800000 = false ∧ isZero 1 = false ∧ isFinite 1 = true ∧ fpSign 0x80000001 = true ∧
      isZero 0x80000001 = false) := by decide
theorem witness_ExactZeroSums :
    isFinite 0x3F800000 = true ∧ isFinite 0xBF800000 = true ∧ fpVal 0x3F800000 + fpVal 0xBF800000 = 0 ∧
    fpVal 0x3F800000 - fpVal 0x3F800000 = 0 := by
  refine ⟨by decide, by decide, ?_, sub_self _⟩
  rw [fpVal, fpVal, show fpInt 0x3F800000 = 2 ^ 149 by decide +kernel, show fpInt 0xBF800000 = -2 ^ 149 by decide +kernel]
  norm_num
theorem witness_ExactResultIsRounded :
    isFinite 0x3F800000 = true ∧ isFinite 1 = true ∧ fpVal 0x3F800000 + fpVal 1 ≠ 0 ∧ fpVal 0x3F800000 - fpVal 1 ≠ 0 ∧
    fpVal 0x3F800000 * fpVal 1 ≠ 0 ∧ fpVal 0x3F800000 ≠ 0 ∧ fpVal 1 ≠ 0 ∧ (-1 : Int) ≠ 0 := by
  refine ⟨by decide, by decide, ?_⟩
  rw [fpVal, fpVal, show fpInt 0x3F800000 = 2 ^ 149 by decide +kernel, show fpInt 1 = 1 by decide +kernel]
  norm_num
/-- The least magnitude, and one above every finite number. -/
theorem witness_Rounding : 0 < 1 ∧ 0 < 2 ^ 149 ∧ 0 < 2 ^ 128 := by decide
theorem witness_SquareRoots :
    isFinite 1 = true ∧ isZero 1 = false ∧ fpSign 1 = false ∧ isFinite 0x7F7FFFFF = true ∧
    isZero 0x7F7FFFFF = false ∧ fpSign 0x7F7FFFFF = false ∧ isFinite 0x1A3504F3 = true := by decide
theorem witness_RoundToIntModes : isFinite 0x40200000 = true := by decide
/-- The ends of both ranges: 2^31, -2^31 - 256, -2^31, 2^31 - 128, 2^32, -1, 2^32 - 256, -1/2 toward zero. -/
theorem witness_FloatToIntResult :
    (isFinite 0x4F000000 = true ∧ 2 ^ 31 - 1 < roundToInt .rne 0x4F000000) ∧
    (isFinite 0xCF000001 = true ∧ roundToInt .rne 0xCF000001 < -2 ^ 31) ∧
    (isFinite 0xCF000000 = true ∧ -2 ^ 31 ≤ roundToInt .rne 0xCF000000 ∧ roundToInt .rne 0xCF000000 ≤ 2 ^ 31 - 1) ∧
    (isFinite 0x4EFFFFFF = true ∧ -2 ^ 31 ≤ roundToInt .rne 0x4EFFFFFF ∧ roundToInt .rne 0x4EFFFFFF ≤ 2 ^ 31 - 1) ∧
    (isFinite 0x4F800000 = true ∧ 2 ^ 32 - 1 < roundToInt .rne 0x4F800000) ∧
    (isFinite 0xBF800000 = true ∧ roundToInt .rne 0xBF800000 < 0) ∧
    (isFinite 0x4F7FFFFF = true ∧ 0 ≤ roundToInt .rne 0x4F7FFFFF ∧ roundToInt .rne 0x4F7FFFFF ≤ 2 ^ 32 - 1) ∧
    (isFinite 0xBF000000 = true ∧ 0 ≤ roundToInt .rtz 0xBF000000 ∧ roundToInt .rtz 0xBF000000 ≤ 2 ^ 32 - 1) ∧
    (isNan 0x7FC00000 = true ∧ isInf 0x7F800000 = true ∧ fpSign 0x7F800000 = false ∧ isInf 0xFF800000 = true ∧
      fpSign 0xFF800000 = true) := by decide +kernel
theorem witness_FloatMoveForms :
    (0x3F800000 : Word) = (user 0 0 0x3F800000 0xC0000000).fp 1 ∧ (0xC0000000 : Word) = (user 0 0 0x3F800000 0xC0000000).fp 2 := by
  decide
theorem witness_MinMaxMeaning :
    isNan 0x7FC00000 = true ∧ isNan 0x3F800000 = false ∧ isNan 0x80000000 = false ∧ isNan 0 = false ∧
    isZero 0x80000000 = true ∧ isZero 0 = true ∧ fpSign 0x80000000 ≠ fpSign 0 := by decide
theorem witness_FloatToIntegerForms :
    (0x3F800000 : Word) = (user 0 0 0x3F800000 0x7FC00000).fp 1 ∧ (0x7FC00000 : Word) = (user 0 0 0x3F800000 0x7FC00000).fp 2 := by
  decide
theorem witness_CompareOrder :
    isFinite 0xFF7FFFFF = true ∧ isNan 0 = false ∧ isNan 0x80000000 = false ∧ fpInt 0 = fpInt 0x80000000 ∧
    fpExp 0x807FFFFF = 0 ∧ fpExp 0x00800000 ≠ 0 ∧ isFinite 0x00800000 = true := by decide +kernel
theorem witness_FlagsAccumulateFrmAndSargKept :
    (∃ t, step { ready with fflags := ⟨true, true, true, true, true⟩ } = .next t) := exists_next (by decide)
theorem witness_TrapEntryAndReturn : (user 1 2 0 0).mode = .user ∧ machine.mode = .machine := by decide
theorem witness_PollForInterrupt :
    (user 1 2 0 0).irqs.headD false = false ∧ ({ user 1 2 0 0 with irqs := [true] } : State).irqs.headD false = true ∧
    ({ user 1 2 0 0 with irqs := [true] } : State).mode = .user := by decide
/-- WFI that goes on in either mode, that takes the interrupt, that waits. -/
theorem witness_WaitForInterruptForms :
    machine.waiting = false ∧ ({ machine with irqs := [true] } : State).irqs.headD false = true ∧
    ¬ (({ machine with irqs := [true] } : State).mode = .user ∧ ({ machine with irqs := [true] } : State).ie = true) ∧
    ¬ (({ user 0 0 0 0 with irqs := [true] } : State).mode = .user ∧ ({ user 0 0 0 0 with irqs := [true] } : State).ie = true) ∧
    ({ user 0 0 0 0 with ie := true, irqs := [true] } : State).mode = .user ∧
    ({ user 0 0 0 0 with ie := true, irqs := [true] } : State).ie = true ∧ machine.irqs.headD false = false := by decide
theorem witness_WaitingSteps :
    ({ machine with waiting := true } : State).waiting = true ∧ machine.irqs.headD false = false ∧
    ({ user 0 0 0 0 with waiting := true, ie := true, irqs := [true] } : State).irqs.headD false = true ∧
    ({ user 0 0 0 0 with waiting := true, ie := true, irqs := [true] } : State).ie = true := by decide
theorem witness_InterruptIsTaken :
    ({ user 0 0 0 0 with ie := true, irqs := [true] } : State).waiting = false ∧
    ({ user 0 0 0 0 with ie := true, irqs := [true] } : State).mode = .user ∧
    ({ user 0 0 0 0 with ie := true, irqs := [true] } : State).ie = true ∧
    ({ user 0 0 0 0 with ie := true, irqs := [true] } : State).irqs.headD false = true := by decide
theorem witness_WrongModeRefused :
    machine.mode = .machine ∧ ({ machine with irqs := [true] } : State).irqs.headD false = true ∧
    (user 0 0 0 0).mode = .user := by decide
theorem witness_CallAndReturn : (user 1 2 0 0).mode = .user := by decide
/-- The five ways into machine mode, and the one out of it. -/
theorem witness_ModeChanges :
    after (step { user 0 0 0 0 with ie := true, irqs := [true] }) (fun t => t.mode) = some .machine ∧
    after (step { user 0 0 0 0 with waiting := true, ie := true, irqs := [true] }) (fun t => t.mode) = some .machine ∧
    after (step ((user 0 0 0 0).withFetchWord 32 0x00000073)) (fun t => t.mode) = some .machine ∧
    after (step ((user 0 0 0 0).withFetchWord 32 0x00100073)) (fun t => t.mode) = some .machine ∧
    after (step { (user 0 0 0 0).withFetchWord 32 0x10300073 with irqs := [true] }) (fun t => t.mode) = some .machine ∧
    readyEret.mode = .machine ∧ after (step readyEret) (fun t => t.mode) = some .user := by decide
/-- A completed instruction, an interrupt, a WFI that begins to wait, one that goes on waiting. -/
theorem witness_RetiredCount :
    goesOn (step ready) = true ∧ goesOn (step { user 0 0 0 0 with ie := true, irqs := [true] }) = true ∧
    after (step ((user 0 0 0 0).withFetchWord 32 0x10100073)) (fun t => t.waiting) = some true ∧
    after (step { machine with waiting := true }) (fun t => t.waiting) = some true := by decide
theorem witness_FirstInstructionAfterReset :
    Instr.eret.wellFormed = true ∧ ∀ k < 4, Memory.read
      [(0xFFFC0100, 0x73), (0xFFFC0101, 0x00), (0xFFFC0102, 0x00), (0xFFFC0103, 0x10)] (0xFFFC0100 + k) =
        some ((encode .eret).extractLsb' (8 * k) 8) := by decide
theorem witness_InvAtReset : Memory.wf storeBytes ∧ Aligned ({ Drawn.zero with pcU := 0x1000 } : Drawn).pcU := by decide
theorem witness_StepKeepsInv : State.Inv readyEret ∧ ∃ t, step readyEret = .next t :=
  ⟨⟨by decide, by decide, by decide, by decide⟩, exists_next (by decide)⟩

end Sys2Proof.Tests
end

section
/-! Facts about the operations of the model, in the order of their definitions: addresses, flags, register files, control
registers, memory on this platform, the events that change the mode, the wait of WFI and the end of a step. -/

namespace Sys2Proof.Machine

/-! ### Aligned addresses (R27) -/

theorem aligned_iff {a : Word} : Aligned a ↔ a.toNat % 4 = 0 := by
  rw [Aligned, ← BitVec.toNat_inj]
  simp [BitVec.extractLsb'_toNat]

theorem aligned_add_four {a : Word} (h : Aligned a) : Aligned (a + 4) := by
  rw [aligned_iff] at h ⊢
  rw [BitVec.toNat_add, show (4 : Word).toNat = 4 from rfl]
  omega

theorem aligned_clearLow2 (a : Word) : Aligned (clearLow2 a) := by
  have hmask : (0xFFFFFFFC : Word).extractLsb' 0 2 = 0 := by decide
  rw [Aligned, clearLow2, BitVec.extractLsb'_and, hmask]
  exact BitVec.and_zero

/-! ### Flags only accumulate (R33) -/

theorem FFlags.or_assoc (a b c : FFlags) : (a.or b).or c = a.or (b.or c) := by
  simp only [FFlags.or, Bool.or_assoc]

/-- A flag that is set stays set when flags are raised (R33). -/
theorem FFlags.or_keeps (a b : FFlags) :
    (a.nv = true → (a.or b).nv = true) ∧ (a.dz = true → (a.or b).dz = true) ∧ (a.of = true → (a.or b).of = true) ∧
    (a.uf = true → (a.or b).uf = true) ∧ (a.nx = true → (a.or b).nx = true) := by
  simp +contextual [FFlags.or]

/-! ### Register files (R21, R22, R28) -/

/-- A write to register 0 is discarded (D25). -/
theorem State.setX_zero (s : State) (v : Word) : s.setX 0 v = s := by
  unfold State.setX
  split <;> rfl

theorem State.setFp_zero (s : State) (v : Word) : s.setFp 0 v = s := rfl

/-- The bank that a register operand reads. -/
theorem State.x_eq (s : State) (r : XReg) :
    s.x r = if s.mode = .user then s.xU.read r else s.xM.read r := by
  unfold State.x State.bank
  cases s.mode <;> rfl

/-! ### Program counters (R25) -/

theorem State.pc_of_user {s : State} (hm : s.mode = .user) : s.pc = s.pcU := by rw [State.pc, hm]

theorem State.pc_of_machine {s : State} (hm : s.mode = .machine) : s.pc = s.pcM := by rw [State.pc, hm]

/-! ### Control and status registers (R36, R102) -/

/-- The six counter words. -/
theorem State.csr_counters (s : State) :
    s.csr 0xC00 = some (s.cycle.extractLsb' 0 32) ∧ s.csr 0xC80 = some (s.cycle.extractLsb' 32 32) ∧
    s.csr 0xC01 = some (s.time.extractLsb' 0 32) ∧ s.csr 0xC81 = some (s.time.extractLsb' 32 32) ∧
    s.csr 0xC02 = some (s.instret.extractLsb' 0 32) ∧ s.csr 0xC82 = some (s.instret.extractLsb' 32 32) :=
  ⟨rfl, rfl, rfl, rfl, rfl, rfl⟩

/-- The code of a counter read is the twelve-bit code of its word. -/
theorem csrCode_encodeSys (code : BitVec 12) (f3 : BitVec 3) (rd : XReg) :
    (encodeSys code f3 rd).extractLsb' 20 12 = code := funct12_encodeSys code f3 rd

theorem State.csr_sarg (s : State) (k : Fin 8) : s.csr (BitVec.ofNat 12 (0x800 + k)) = some s.sarg[k] := by
  fin_cases k <;> rfl

/-- The numbers of the system argument registers are those whose nine high bits are 0x100. -/
theorem sargNumber_iff (n : BitVec 12) : n.extractLsb' 3 9 = 0x100 ↔ 0x800 ≤ n.toNat ∧ n.toNat ≤ 0x807 := by
  rw [← BitVec.toNat_inj, BitVec.extractLsb'_toNat, Nat.shiftRight_eq_div_pow,
    show (0x100 : BitVec 9).toNat = 256 from rfl]
  have := n.isLt
  omega

theorem State.csr_ne_none_iff (s : State) (n : BitVec 12) : s.csr n ≠ none ↔
    n ∈ [0xC00#12, 0xC80#12, 0xC01#12, 0xC81#12, 0xC02#12, 0xC82#12] ∨ (0x800 ≤ n.toNat ∧ n.toNat ≤ 0x807) := by
  rw [← sargNumber_iff]
  unfold State.csr
  simp only [List.mem_cons, List.not_mem_nil, or_false]
  split_ifs <;> simp_all

/-! ### Memory on this platform -/

/-- MemRead on this platform reads its bytes as if by one bus cycle. -/
theorem memRead_eq_readBytesOn (s : State) (a : Word) (n : Nat) :
    memRead s a n = andThen (readBytesOn platform s a n) fun bs => .next (wordOfBytes bs) :=
  memReadOn_eq_readBytesOn fun _ _ => regionOf_ne_device _

/-- MemWrite on this platform: a refusal that depends on the addresses alone, or a write to memory. -/
theorem memWrite_eq (s : State) (a : Word) (n : Nat) (v : Word) :
    memWrite s a n v = (storeRefusalOn platform a n).elim
      (.next { s with mem := s.mem.writeBytes a (bytesOfWord n v) }) .refused := by
  rw [← storeBytesOn_eq_writeBytes (p := platform) rfl _ _ _ fun _ _ => regionOf_ne_device _,
    ← State.afterWriteOn_eq_storeBytesOn fun _ _ => regionOf_ne_device _, memWrite, memWriteOn]
  cases storeRefusalOn platform a n <;> rfl

/-- Under IFETCH_COHERENT = true a fetch is a read of the current memory (R67, R76). -/
theorem fetch_eq (s : State) :
    fetch s = if fetchAligned s.pc then memRead s s.pc 4 else .refused (.misalignedFetch s.pc) := rfl

/-! ### Loads of bytes without a value (R45, D20, log 2) -/

theorem readByte_fault {s : State} {a : Word} (hn : s.mem.read a.toNat = none) :
    readByte s a = .fault (.unwrittenByte a) := by
  have hr := regionOf_cases a
  unfold regionOf at hr
  unfold readByte readByteOn
  rcases hr with hr | hr <;> simp [hr, hn]

/-- A read of bytes ends with the first of them that cannot be read. -/
theorem readBytesOn_fault {p : Platform} {s : State} {a : Word} {n k : Nat} {e : Fault} (hk : k < n)
    (hread : ∀ j < k, ∃ b, readByteOn p s (a + BitVec.ofNat 32 j) = .next b)
    (hfault : readByteOn p s (a + BitVec.ofNat 32 k) = .fault e) : readBytesOn p s a n = .fault e := by
  induction n generalizing a k with
  | zero => omega
  | succ n ih =>
    cases k with
    | zero =>
      have h0 : readByteOn p s a = .fault e := by simpa using hfault
      rw [readBytesOn, h0, andThen]
    | succ k =>
      obtain ⟨b, hb⟩ : ∃ b, readByteOn p s a = .next b := by simpa using hread 0 (by omega)
      have hrest : readBytesOn p s (a + 1) n = .fault e := by
        refine ih (k := k) (by omega) (fun j hj => ?_) ?_
        · rw [add_one_add]
          exact hread (j + 1) (by omega)
        · rw [add_one_add]
          exact hfault
      rw [readBytesOn, hb, andThen_next, hrest, andThen]

/-- MemRead faults at its first byte without a value. -/
theorem memRead_fault {s : State} {a : Word} {n k : Nat} (hk : k < n)
    (hread : ∀ j < k, ∃ b, readByte s (a + BitVec.ofNat 32 j) = .next b)
    (hnone : s.mem.read (a + BitVec.ofNat 32 k).toNat = none) :
    memRead s a n = .fault (.unwrittenByte (a + BitVec.ofNat 32 k)) := by
  rw [memRead_eq_readBytesOn, readBytesOn_fault hk hread (readByte_fault hnone), andThen]

/-! ### The instructions that change the mode (R280 to R287) -/

/-- A synchronous event resumes after its instruction (R280, D8). -/
theorem execEcall_eq_next {s t : State} : execEcall s = .next t ↔ s.mode = .user ∧ t = trapEnter (s.pc + 4) s :=
  raiseTrap_eq_next

theorem execEbreak_eq_next {s t : State} : execEbreak s = .next t ↔ s.mode = .user ∧ t = trapEnter (s.pc + 4) s :=
  raiseTrap_eq_next

theorem execEret_eq_next {s t : State} : execEret s = .next t ↔ s.mode = .machine ∧ t = trapReturn s := by
  unfold execEret
  cases s.mode <;> simp [eq_comm]

theorem execPfi_eq_next {s t : State} : execPfi s = .next t ↔
    (s.irq = true ∧ s.mode = .user ∧ t = trapEnter (s.pc + 4) s) ∨ (s.irq = false ∧ t = s.advance) := by
  unfold execPfi
  cases s.irq
  · simp [eq_comm]
  · simp only [if_true, true_and, Bool.true_eq_false, false_and, or_false]
    exact raiseTrap_eq_next

/-- The test between instructions (R283). -/
theorem interruptReady_iff {s : State} : s.interruptReady = true ↔ s.mode = .user ∧ s.ie = true ∧ s.irq = true := by
  simp [State.interruptReady, and_assoc]

/-! ### The three outcomes of WFI, as equations (R264, D36) -/

theorem waitForInterrupt_taken {s : State} (hi : s.irq = true) (hm : s.mode = .user) (hie : s.ie = true) :
    waitForInterrupt s = takeTrap (.interrupt .wait) { s with waiting := false } := by
  simp [waitForInterrupt, hi, hm, hie]

theorem waitForInterrupt_ended {s : State} (hi : s.irq = true) (hu : ¬ (s.mode = .user ∧ s.ie = true)) :
    waitForInterrupt s = State.advance { s with waiting := false } := by
  simp only [waitForInterrupt, hi, if_true, Bool.and_eq_true, beq_iff_eq, if_neg hu]

theorem waitForInterrupt_paused {s : State} (hi : s.irq = false) :
    waitForInterrupt s = { s with waiting := true } := by
  simp [waitForInterrupt, hi]

/-- A core that already waits, with no interrupt present, is not changed by the wait. -/
theorem waitForInterrupt_waiting {s : State} (hw : s.waiting = true) (hi : s.irq = false) : waitForInterrupt s = s := by
  rw [waitForInterrupt_paused hi, ← hw]

/-! ### The end of a step -/

theorem finishInstr_of_waiting {s : State} (hw : s.waiting = true) : finishInstr s = elapse s := by
  rw [finishInstr, if_pos hw]

theorem finishInstr_of_not_waiting {s : State} (hw : s.waiting = false) : finishInstr s = elapse (retire s) := by
  rw [finishInstr, hw, if_neg Bool.false_ne_true]

end Sys2Proof.Machine
end

section
/-! What one instruction, and one step, can do to the state: the frame of an instruction that is no trap, return or wait,
the inversion of `exec`, and the events of a step. -/

namespace Sys2Proof.Machine

/-! ### The frame of an ordinary instruction -/

theorem SameControl.refl (s : State) : SameControl s s := by constructor <;> rfl

theorem SameControl.trans {s t u : State} (h : SameControl s t) (k : SameControl t u) : SameControl s u where
  mode := k.mode.trans h.mode
  ie := k.ie.trans h.ie
  pie := k.pie.trans h.pie
  frm := k.frm.trans h.frm
  cycle := k.cycle.trans h.cycle
  time := k.time.trans h.time
  instret := k.instret.trans h.instret
  sarg := k.sarg.trans h.sarg
  waiting := k.waiting.trans h.waiting
  irqs := k.irqs.trans h.irqs
  draws := k.draws.trans h.draws
  devices := k.devices.trans h.devices
  stored := k.stored.trans h.stored

theorem OtherContextKept.refl (s : State) : OtherContextKept s s := by
  unfold OtherContextKept; cases s.mode <;> exact ⟨rfl, rfl⟩

theorem OtherContextKept.trans {s t u : State} (hm : t.mode = s.mode) (h : OtherContextKept s t)
    (k : OtherContextKept t u) : OtherContextKept s u := by
  unfold OtherContextKept at *
  rw [hm] at k
  cases hs : s.mode <;> simp only [hs] at h k ⊢ <;> exact ⟨k.1.trans h.1, k.2.trans h.2⟩

theorem OtherContextKept.of_user {s t : State} (h : OtherContextKept s t) (hm : s.mode = .user) :
    t.xM = s.xM ∧ t.pcM = s.pcM := by
  simpa only [OtherContextKept, hm] using h

theorem OtherContextKept.of_machine {s t : State} (h : OtherContextKept s t) (hm : s.mode = .machine) :
    t.xU = s.xU ∧ t.pcU = s.pcU := by
  simpa only [OtherContextKept, hm] using h

/-- What every instruction but a trap, a return and WFI keeps: the control state, the context of the other mode, flags
once set, the canonical form of memory, and an aligned program counter. -/
structure OrdinaryEffect (s t : State) : Prop where
  control : SameControl s t
  other : OtherContextKept s t
  flags : ∃ fl, t.fflags = s.fflags.or fl
  mem : Memory.wf s.mem → Memory.wf t.mem
  pc : Aligned s.pc → Aligned t.pc

namespace OrdinaryEffect

theorem trans {s t u : State} (h : OrdinaryEffect s t) (k : OrdinaryEffect t u) : OrdinaryEffect s u where
  control := h.control.trans k.control
  other := h.other.trans h.control.mode k.other
  flags := by
    obtain ⟨fl, hfl⟩ := h.flags
    obtain ⟨fl', hfl'⟩ := k.flags
    exact ⟨fl.or fl', by rw [hfl', hfl, FFlags.or_assoc]⟩
  mem := k.mem ∘ h.mem
  pc := k.pc ∘ h.pc

theorem refl (s : State) : OrdinaryEffect s s :=
  ⟨.refl s, .refl s, ⟨{}, (FFlags.or_none _).symm⟩, id, id⟩

theorem setX (s : State) (i : XReg) (v : Word) : OrdinaryEffect s (s.setX i v) where
  control := by constructor <;> simp
  other := s.setX_other i v
  flags := ⟨{}, by simp⟩
  mem := by simp
  pc := by simp

theorem setFp (s : State) (i : FReg) (v : Word) : OrdinaryEffect s (s.setFp i v) where
  control := by constructor <;> rfl
  other := OtherContextKept.refl s
  flags := ⟨{}, by simp⟩
  mem := id
  pc := id

theorem raiseFlags (s : State) (fl : FFlags) : OrdinaryEffect s (s.raiseFlags fl) where
  control := by constructor <;> rfl
  other := OtherContextKept.refl s
  flags := ⟨fl, rfl⟩
  mem := id
  pc := id

theorem setPc (s : State) {a : Word} (ha : Aligned s.pc → Aligned a) : OrdinaryEffect s (s.setPc a) where
  control := by constructor <;> simp
  other := s.setPc_other a
  flags := ⟨{}, by simp⟩
  mem := by simp
  pc := by simpa using ha

theorem advance (s : State) : OrdinaryEffect s s.advance := setPc s aligned_add_four

theorem writeBytes (s : State) (a : Word) (bs : List Byte) :
    OrdinaryEffect s { s with mem := s.mem.writeBytes a bs } where
  control := by constructor <;> rfl
  other := OtherContextKept.refl s
  flags := ⟨{}, by simp⟩
  mem h := Memory.wf_writeBytes bs h a
  pc := id

/-! The shapes in which the meanings of instructions end. -/

theorem of_writeX {rd : XReg} {v : Word} {s t : State} (h : writeX rd v s = .next t) : OrdinaryEffect s t := by
  cases h
  exact (setX s rd v).trans (advance _)

theorem of_writeFp {frd : FReg} {v : Word} {s t : State} (h : writeFp frd v s = .next t) : OrdinaryEffect s t := by
  cases h
  exact (setFp s frd v).trans (advance _)

theorem of_writeFp_flags {frd : FReg} {v : Word} {fl : FFlags} {s t : State}
    (h : writeFp frd v (s.raiseFlags fl) = .next t) : OrdinaryEffect s t := (raiseFlags s fl).trans (of_writeFp h)

theorem of_deliverX {rd : XReg} {v : Word} {fl : FFlags} {s t : State} (h : deliverX rd v fl s = .next t) :
    OrdinaryEffect s t := (raiseFlags s fl).trans (of_writeX h)

theorem of_advance {s t : State} (h : (.next s.advance : Result) = .next t) : OrdinaryEffect s t := by
  cases h
  exact advance s

theorem of_jumpAndLink {rd : XReg} {off : BitVec 20} {s t : State} (h : jumpAndLink rd off s = .next t) :
    OrdinaryEffect s t := by
  cases h
  exact (setX s rd s.link).trans (setPc _ fun _ => aligned_clearLow2 _)

theorem of_jumpAndLinkReg {rd rs1 : XReg} {imm : BitVec 12} {s t : State}
    (h : jumpAndLinkReg rd rs1 imm s = .next t) : OrdinaryEffect s t := by
  cases h
  exact (setX s rd s.link).trans (setPc _ fun _ => aligned_clearLow2 _)

theorem of_execRet {s t : State} (h : execRet s = .next t) : OrdinaryEffect s t := by
  cases h
  exact setPc s fun _ => aligned_clearLow2 _

theorem of_branchTo {a : Word} {s t : State} (h : branchTo a s = .next t) : OrdinaryEffect s t := by
  obtain ⟨ha, rfl⟩ := branchTo_eq_next.1 h
  exact setPc s fun _ => ha

theorem of_branchIf {taken : Bool} {off : BitVec 12} {s t : State} (h : branchIf taken off s = .next t) :
    OrdinaryEffect s t := by
  obtain ⟨-, ha, rfl⟩ | ⟨-, rfl⟩ := branchIf_eq_next.1 h
  · exact setPc s fun _ => ha
  · exact advance s

theorem of_loadX {rd rs1 : XReg} {imm : BitVec 12} {n : Nat} {ext : Word → Word} {s t : State}
    (h : loadX rd rs1 imm n ext s = .next t) : OrdinaryEffect s t := by
  obtain ⟨v, -, rfl⟩ := loadX_eq_next.1 h
  exact (setX s rd (ext v)).trans (advance _)

theorem of_execFlw {frd : FReg} {rs1 : XReg} {imm : BitVec 12} {s t : State} (h : execFlw frd rs1 imm s = .next t) :
    OrdinaryEffect s t := by
  simp only [execFlw, loadThen, State.afterRead_eq, andThen_eq_next] at h
  obtain ⟨v, -, h⟩ := h
  exact of_writeFp h

theorem of_storeV {rs1 : XReg} {imm : BitVec 12} {n : Nat} {v : Word} {s t : State}
    (h : storeV rs1 imm n v s = .next t) : OrdinaryEffect s t := by
  obtain ⟨-, rfl⟩ := storeV_eq_next.1 h
  exact (writeBytes s _ _).trans (advance _)

theorem of_withRounding {rm : BitVec 3} {s t : State} {k : Rounding → Result} (h : withRounding rm s k = .next t)
    (hk : ∀ m, k m = .next t → OrdinaryEffect s t) : OrdinaryEffect s t := by
  obtain ⟨m, -, h⟩ := withRounding_eq_next.1 h
  exact hk m h

theorem of_rounded_deliverX {rm : BitVec 3} {rd : XReg} {v : Rounding → Word} {fl : Rounding → FFlags} {s t : State}
    (h : withRounding rm s (fun m => deliverX rd (v m) (fl m) s) = .next t) : OrdinaryEffect s t :=
  of_withRounding h fun _ => of_deliverX

theorem of_rounded_deliverFp {rm : BitVec 3} {frd : FReg} {r : Rounding → Rounded} {fl : Rounding → FFlags}
    {s t : State} (h : withRounding rm s (fun m => deliverFp frd (r m) (fl m) s) = .next t) : OrdinaryEffect s t :=
  of_withRounding h fun _ => of_writeFp_flags

end OrdinaryEffect

/-! ### What an executed instruction can do -/

/-- The instructions that can enter machine mode when they are executed (R280). -/
def RaisesTrap (s : State) (i : Instr) : Prop := i = .ecall ∨ i = .ebreak ∨ (i = .pfi ∧ s.irq = true)

/-- Everything an executed instruction can do: its own context's business, a trap entry, a return, or the wait. -/
inductive ExecEvent (i : Instr) (s : State) : State → Prop
  | ordinary {t : State} (h : OrdinaryEffect s t) : ExecEvent i s t
  | trap (hi : RaisesTrap s i) (hm : s.mode = .user) : ExecEvent i s (trapEnter (s.pc + 4) s)
  | ret (hi : i = .eret) (hm : s.mode = .machine) : ExecEvent i s (trapReturn s)
  | wait (hi : i = .wfi) : ExecEvent i s (waitForInterrupt s)

theorem exec_event {i : Instr} {s t : State} (h : exec i s = .next t) : ExecEvent i s t := by
  cases i with
  | lui | auipc | ldi | addi | slti | sltui | xori | ori | andi | slli | srli | srai | add | sub | mul | sll | slt | sltu
  | xor | srl | sra | or | and | mov | fmvXS | fclass | rdcycle | rdcycleh | rdtime | rdtimeh | rdinstret | rdinstreth =>
    exact .ordinary (.of_writeX h)
  | fsgnj | fsgnjn | fsgnjx | fmov | fneg | fabs | fmvSX => exact .ordinary (.of_writeFp h)
  | fmin | fmax => exact .ordinary (.of_writeFp_flags h)
  | feq | flt | fle => exact .ordinary (.of_deliverX h)
  | fadd | fsub | fmul | fdiv | fsqrt | fcvtSW | fcvtSWu => exact .ordinary (.of_rounded_deliverFp h)
  | fcvtWS | fcvtWuS => exact .ordinary (.of_rounded_deliverX h)
  | nop | fence | fenceI => exact .ordinary (.of_advance h)
  | jal | call => exact .ordinary (.of_jumpAndLink h)
  | jalr => exact .ordinary (.of_jumpAndLinkReg h)
  | ret => exact .ordinary (.of_execRet h)
  | beq | bne | blt | bge | bltu | bgeu => exact .ordinary (.of_branchIf h)
  | bra => exact .ordinary (.of_branchTo h)
  | lb | lh | lw | lbu | lhu => exact .ordinary (.of_loadX h)
  | flw => exact .ordinary (.of_execFlw h)
  | sb | sh | sw | fsw => exact .ordinary (.of_storeV h)
  | ecall =>
    obtain ⟨hm, rfl⟩ := execEcall_eq_next.1 h
    exact .trap (.inl rfl) hm
  | ebreak =>
    obtain ⟨hm, rfl⟩ := execEbreak_eq_next.1 h
    exact .trap (.inr (.inl rfl)) hm
  | eret =>
    obtain ⟨hm, rfl⟩ := execEret_eq_next.1 h
    exact .ret rfl hm
  | wfi =>
    cases h
    exact .wait rfl
  | pfi =>
    obtain ⟨hi, hm, rfl⟩ | ⟨-, rfl⟩ := execPfi_eq_next.1 h
    · exact .trap (.inr (.inr ⟨rfl, hi⟩)) hm
    · exact .ordinary (.advance s)

/-! ### What a step can do -/

/-- Why a step enters machine mode, and the user address at which execution is to resume (R280; D8, D36). -/
def EntersMachine (s : State) (resume : Word) : Prop :=
  (s.waiting = false ∧ s.ie = true ∧ s.irq = true ∧ resume = s.pcU) ∨
  (s.waiting = true ∧ s.ie = true ∧ s.irq = true ∧ resume = s.pcU + 4) ∨
  (resume = s.pcU + 4 ∧ ∃ i, Executes s i ∧ RaisesTrap s i)

/-- What a step does, but for the counters and inputs that move at its end: it stays in its mode, the wait ended, begun
or gone on with (`w`), or it enters machine mode, or it returns from it. -/
inductive StepEvent (s : State) : State → Prop
  | stay (w : Bool) {u : State} (h : OrdinaryEffect { s with waiting := w } u) : StepEvent s u
  | enter (w : Bool) (resume : Word) (hm : s.mode = .user) (hr : EntersMachine s resume) :
      StepEvent s (trapEnter resume { s with waiting := w })
  | leave (hx : Executes s .eret) (hm : s.mode = .machine) : StepEvent s (trapReturn s)

/-- `t` is `u` with other counters, and other inputs to come. -/
def Elapsed (u t : State) : Prop :=
  ∃ c ti n q d, t = { u with cycle := c, time := ti, instret := n, irqs := q, draws := d }

theorem elapsed_elapse (u : State) : Elapsed u (elapse u) := ⟨_, _, _, _, _, rfl⟩

theorem elapsed_finishInstr (u : State) : Elapsed u (finishInstr u) := by
  unfold finishInstr
  split <;> exact ⟨_, _, _, _, _, rfl⟩

theorem StepEvent.of_ordinary {s t : State} (h : OrdinaryEffect s t) : StepEvent s t := .stay s.waiting h

/-- An interrupt that ends the wait of WFI is a reason to enter machine mode only where the core was waiting: a WFI just
begun finds no interrupt to take, since it would have been taken before the fetch. -/
theorem stepEvent_waitForInterrupt {s : State} (hr : s.waiting = false → s.interruptReady = false) :
    StepEvent s (waitForInterrupt s) := by
  obtain ⟨hi, hm, hie, h⟩ | ⟨-, -, h⟩ | ⟨-, h⟩ := waitForInterrupt_cases s
  · have hw : s.waiting = true := by
      by_contra hw
      have hready := hr (Bool.not_eq_true _ ▸ hw)
      rw [interruptReady_iff.2 ⟨hm, hie, hi⟩] at hready
      cases hready
    rw [h]
    exact .enter false _ hm (.inr (.inl ⟨hw, hie, hi, congrArg (· + 4) (State.pc_of_user hm)⟩))
  · rw [h]
    exact .stay false (.advance _)
  · rw [h]
    exact .stay true (.refl _)

/-- Everything a step can do. -/
theorem step_event {s t : State} (h : step s = .next t) : ∃ u, StepEvent s u ∧ Elapsed u t := by
  obtain ⟨hw, rfl⟩ | ⟨hw, hr, rfl⟩ | ⟨hw, hr, w, i, u, hf, hd, hx, rfl⟩ := step_eq_next.1 h
  · exact ⟨_, stepEvent_waitForInterrupt fun h => by simp [hw] at h, elapsed_finishInstr _⟩
  · obtain ⟨hm, hie, hi⟩ := interruptReady_iff.1 hr
    exact ⟨_, .enter s.waiting _ hm (.inl ⟨hw, hie, hi, State.pc_of_user hm⟩), elapsed_elapse _⟩
  · have hexec : Executes s i := ⟨hw, hr, w, hf, hd⟩
    refine ⟨u, ?_, elapsed_finishInstr u⟩
    cases exec_event hx with
    | ordinary h => exact .of_ordinary h
    | trap hi hm => exact .enter s.waiting _ hm (.inr (.inr ⟨by rw [State.pc_of_user hm], i, hexec, hi⟩))
    | ret hi hm => exact .leave (hi ▸ hexec) hm
    | wait hi => exact stepEvent_waitForInterrupt fun _ => hr

/-- The step of a state that executes an instruction. -/
theorem step_of_executes {s : State} {i : Instr} (h : Executes s i) : step s = mapNext finishInstr (exec i s) := by
  obtain ⟨hw, hr, w, hf, hd⟩ := h
  simp only [step, hw, hr, stepInstr, hf, andThen_next, hd, State.afterRead_eq, Bool.false_eq_true, if_false]
  cases exec i s <;> rfl

end Sys2Proof.Machine
end

section
/-! What every step keeps: flags and rounding mode, the mode, the program counters, the invariant. -/

namespace Sys2Proof.Machine

/-- A step adds flags, and writes neither `frm` nor a system argument register. -/
theorem step_keeps_fpControl {s t : State} (h : step s = .next t) :
    t.frm = s.frm ∧ t.sarg = s.sarg ∧ ∃ fl, t.fflags = s.fflags.or fl := by
  obtain ⟨u, hu, c, ti, n, q, d, rfl⟩ := step_event h
  cases hu with
  | stay w ho => exact ⟨ho.control.frm, ho.control.sarg, ho.flags⟩
  | enter w r hm hr => exact ⟨rfl, rfl, {}, (FFlags.or_none _).symm⟩
  | leave hx hm => exact ⟨rfl, rfl, {}, (FFlags.or_none _).symm⟩

/-- Settles O44: the flags after a step are those before it with flags added. -/
theorem flagsAccumulateFrmAndSargKept : Obligations.FlagsAccumulateFrmAndSargKept := by
  intro s t h
  obtain ⟨hfrm, hsarg, fl, hfl⟩ := step_keeps_fpControl h
  exact ⟨hfrm, hsarg, hfl ▸ FFlags.or_keeps s.fflags fl⟩

/-- A step from user to machine mode has one of the reasons of R280, which fixes where user mode resumes. -/
theorem step_enters_machine {s t : State} (h : step s = .next t) (hm : s.mode = .user) (ht : t.mode = .machine) :
    EntersMachine s t.pcU := by
  obtain ⟨u, hu, c, ti, n, q, d, rfl⟩ := step_event h
  cases hu with
  | stay w ho => exact absurd (ho.control.mode.symm.trans ht) (by simp [hm])
  | enter w r _ hr => exact hr
  | leave _ hm' => exact absurd (hm.symm.trans hm') (by decide)

/-- A step from machine to user mode executes an ERET. -/
theorem step_leaves_machine {s t : State} (h : step s = .next t) (hm : s.mode = .machine) (ht : t.mode = .user) :
    Executes s .eret := by
  obtain ⟨u, hu, c, ti, n, q, d, rfl⟩ := step_event h
  cases hu with
  | stay w ho => exact absurd (ho.control.mode.symm.trans ht) (by simp [hm])
  | enter w r hm' _ => exact absurd (hm.symm.trans hm') (by decide)
  | leave hx _ => exact hx

/-- Settles O52: read off the events of a step. -/
theorem modeChanges : Obligations.ModeChanges := by
  refine ⟨rfl, fun _ _ => rfl, fun s t h hm ht => ?_, fun s t h => step_leaves_machine h, fun _ _ _ => rfl⟩
  obtain hbetween | hwait | ⟨hpc, i, hx, rfl | rfl | ⟨rfl, hirq⟩⟩ := step_enters_machine h hm ht
  · exact .inl hbetween
  · exact .inr (.inl hwait)
  · exact .inr (.inr ⟨hpc, .inl hx⟩)
  · exact .inr (.inr ⟨hpc, .inr (.inl hx)⟩)
  · exact .inr (.inr ⟨hpc, .inr (.inr ⟨hx, hirq⟩)⟩)

/-- A step that begins in user mode leaves the machine bank and `pcM`, also where it enters machine mode. -/
theorem step_user_keeps_machine {s t : State} (h : step s = .next t) (hm : s.mode = .user) :
    t.xM = s.xM ∧ t.pcM = s.pcM := by
  obtain ⟨u, hu, c, ti, n, q, d, rfl⟩ := step_event h
  cases hu with
  | stay w ho => exact ho.other.of_user hm
  | enter w r _ _ => exact ⟨rfl, rfl⟩
  | leave _ hm' => exact absurd (hm.symm.trans hm') (by decide)

/-- A step that begins in machine mode leaves the user bank and `pcU`, also where it returns to user mode. -/
theorem step_machine_keeps_user {s t : State} (h : step s = .next t) (hm : s.mode = .machine) :
    t.xU = s.xU ∧ t.pcU = s.pcU := by
  obtain ⟨u, hu, c, ti, n, q, d, rfl⟩ := step_event h
  cases hu with
  | stay w ho => exact ho.other.of_machine hm
  | enter w r hm' _ => exact absurd (hm.symm.trans hm') (by decide)
  | leave _ _ => exact ⟨rfl, rfl⟩

/-- The step of an ERET is a trap return. -/
theorem step_eret {s t : State} (hx : Executes s .eret) (h : step s = .next t) : Elapsed (trapReturn s) t := by
  rw [step_of_executes hx] at h
  cases he : exec .eret s with
  | next u =>
    rw [he] at h
    cases h
    obtain ⟨-, rfl⟩ := execEret_eq_next.1 he
    exact elapsed_finishInstr _
  | fault e => simp [he, mapNext] at h
  | refused r => simp [he, mapNext] at h

/-- Settles O10: each event of a step leaves the other mode's program counter, and an ERET is a trap return. -/
theorem programCounterPerMode : Obligations.ProgramCounterPerMode := by
  refine ⟨fun s => ?_, fun s t h hm => (step_user_keeps_machine h hm).2,
    fun s t h hm => (step_machine_keeps_user h hm).2, fun s t hx h => ?_⟩
  · cases hm : s.mode with
    | user => simp [State.pc_of_user hm]
    | machine => simp [State.pc_of_machine hm]
  · obtain ⟨c, ti, n, q, d, rfl⟩ := step_eret hx h
    rfl

/-- Both program counters are multiples of 4 where the current and the other one are. -/
theorem OrdinaryEffect.aligned {s t : State} (h : OrdinaryEffect s t) (hU : Aligned s.pcU) (hM : Aligned s.pcM) :
    Aligned t.pcU ∧ Aligned t.pcM := by
  have hpc := h.pc
  have hmode := h.control.mode
  cases hm : s.mode with
  | user =>
    rw [State.pc_of_user hm, State.pc_of_user (hmode.trans hm)] at hpc
    exact ⟨hpc hU, (h.other.of_user hm).2 ▸ hM⟩
  | machine =>
    rw [State.pc_of_machine hm, State.pc_of_machine (hmode.trans hm)] at hpc
    exact ⟨(h.other.of_machine hm).2 ▸ hU, hpc hM⟩

/-- An ordinary instruction keeps the invariant. -/
theorem OrdinaryEffect.inv {s t : State} (h : OrdinaryEffect s t) (hs : State.Inv s) : State.Inv t where
  mem := h.mem hs.mem
  ie := by
    rw [h.control.mode, h.control.ie]
    exact hs.ie
  pcU := (h.aligned hs.pcU hs.pcM).1
  pcM := (h.aligned hs.pcU hs.pcM).2

/-- User mode resumes at a multiple of 4. -/
theorem EntersMachine.aligned {s : State} {r : Word} (h : EntersMachine s r) (hs : Aligned s.pcU) : Aligned r := by
  obtain ⟨-, -, -, rfl⟩ | ⟨-, -, -, rfl⟩ | ⟨rfl, -⟩ := h
  · exact hs
  · exact aligned_add_four hs
  · exact aligned_add_four hs

/-- Settles O59: each event of a step keeps the invariant. -/
theorem stepKeepsInv : Obligations.StepKeepsInv := by
  intro s t hs h
  obtain ⟨u, hu, c, ti, n, q, d, rfl⟩ := step_event h
  suffices hinv : State.Inv u from ⟨hinv.mem, hinv.ie, hinv.pcU, hinv.pcM⟩
  cases hu with
  | stay w ho => exact ho.inv ⟨hs.mem, hs.ie, hs.pcU, hs.pcM⟩
  | enter w r _ hr => exact ⟨hs.mem, fun _ => rfl, hr.aligned hs.pcU, hs.pcM⟩
  | leave _ _ => exact ⟨hs.mem, fun hm => (nomatch hm), hs.pcU, aligned_add_four hs.pcM⟩

end Sys2Proof.Machine
end

section
/-! Noninterference between the contexts (R23, R290): a step from mode `m` commutes with replacing the integer registers
and the program counter of the other mode. Proved once per operation, then per shape of meaning, then for `exec` and
`step`. -/

namespace Sys2Proof.Machine

/-- The state with other integer registers and another program counter in the mode that is not `m`. -/
def State.withOther (m : Mode) (rf : RegFile) (a : Word) (s : State) : State :=
  match m with
  | .user => { s with xM := rf, pcM := a }
  | .machine => { s with xU := rf, pcU := a }

section
variable (m : Mode) (rf : RegFile) (a : Word) (s : State)

@[simp] theorem State.withOther_mode : (s.withOther m rf a).mode = s.mode := by cases m <;> rfl
@[simp] theorem State.withOther_ie : (s.withOther m rf a).ie = s.ie := by cases m <;> rfl
@[simp] theorem State.withOther_cycle : (s.withOther m rf a).cycle = s.cycle := by cases m <;> rfl
@[simp] theorem State.withOther_time : (s.withOther m rf a).time = s.time := by cases m <;> rfl
@[simp] theorem State.withOther_instret : (s.withOther m rf a).instret = s.instret := by cases m <;> rfl
@[simp] theorem State.withOther_waiting : (s.withOther m rf a).waiting = s.waiting := by cases m <;> rfl
@[simp] theorem State.withOther_mem : (s.withOther m rf a).mem = s.mem := by cases m <;> rfl
@[simp] theorem State.withOther_fp (i : FReg) : (s.withOther m rf a).fp i = s.fp i := by cases m <;> rfl
@[simp] theorem State.withOther_rmCode (rm : BitVec 3) : (s.withOther m rf a).rmCode rm = s.rmCode rm := by
  cases m <;> rfl
@[simp] theorem State.withOther_irq : (s.withOther m rf a).irq = s.irq := by cases m <;> rfl
@[simp] theorem State.withOther_interruptReady : (s.withOther m rf a).interruptReady = s.interruptReady := by
  cases m <;> rfl

/-! ### Updates that touch neither context -/

theorem State.withOther_setFp (i : FReg) (v : Word) :
    (s.withOther m rf a).setFp i v = (s.setFp i v).withOther m rf a := by cases m <;> rfl

theorem State.withOther_raiseFlags (fl : FFlags) :
    (s.withOther m rf a).raiseFlags fl = (s.raiseFlags fl).withOther m rf a := by cases m <;> rfl

theorem State.withOther_setWaiting (w : Bool) :
    { s.withOther m rf a with waiting := w } = State.withOther m rf a { s with waiting := w } := by cases m <;> rfl

theorem State.withOther_setMem (mem : Memory) :
    { s.withOther m rf a with mem := mem } = State.withOther m rf a { s with mem := mem } := by cases m <;> rfl

theorem elapse_withOther : elapse (s.withOther m rf a) = (elapse s).withOther m rf a := by cases m <;> rfl

theorem retire_withOther : retire (s.withOther m rf a) = (retire s).withOther m rf a := by cases m <;> rfl

theorem finishInstr_withOther : finishInstr (s.withOther m rf a) = (finishInstr s).withOther m rf a := by
  unfold finishInstr
  rw [State.withOther_waiting, retire_withOther, elapse_withOther, elapse_withOther]
  split <;> rfl

end

/-! ### The current context -/

section
variable {m : Mode} (rf : RegFile) (a : Word) {s : State} (hm : s.mode = m)
include hm

theorem State.withOther_pc : (s.withOther m rf a).pc = s.pc := by
  subst hm; unfold State.pc State.withOther; cases s.mode <;> simp

theorem State.withOther_x (i : XReg) : (s.withOther m rf a).x i = s.x i := by
  subst hm; unfold State.x State.bank State.withOther; cases s.mode <;> simp

theorem State.withOther_setX (i : XReg) (v : Word) :
    (s.withOther m rf a).setX i v = (s.setX i v).withOther m rf a := by
  subst hm; unfold State.setX State.withOther; cases s.mode <;> simp

theorem State.withOther_setPc (b : Word) : (s.withOther m rf a).setPc b = (s.setPc b).withOther m rf a := by
  subst hm; unfold State.setPc State.withOther; cases s.mode <;> simp

theorem State.withOther_advance : (s.withOther m rf a).advance = s.advance.withOther m rf a := by
  rw [State.advance, State.withOther_pc rf a hm, State.withOther_setPc rf a hm, State.advance]

theorem State.withOther_ea (rs1 : XReg) (imm : BitVec 12) : (s.withOther m rf a).ea rs1 imm = s.ea rs1 imm := by
  rw [State.ea, State.withOther_x rf a hm, State.ea]

theorem State.withOther_link : (s.withOther m rf a).link = s.link := by
  rw [State.link, State.withOther_pc rf a hm, State.link]

end

/-- Trap entry from user mode keeps the machine context for later. -/
theorem takeTrap_withOther (c : TrapCause) (rf : RegFile) (a : Word) {s : State} (hm : s.mode = .user) :
    takeTrap c (s.withOther .user rf a) = (takeTrap c s).withOther .user rf a := by
  rw [takeTrap, State.withOther_pc rf a hm]
  rfl

/-! ### Memory does not depend on registers -/

theorem readBytesOn_withOther (p : Platform) (m : Mode) (rf : RegFile) (b : Word) (s : State) (a : Word) (n : Nat) :
    readBytesOn p (s.withOther m rf b) a n = readBytesOn p s a n := by
  have hbyte (a : Word) : readByteOn p (s.withOther m rf b) a = readByteOn p s a := by cases m <;> rfl
  induction n generalizing a with
  | zero => rfl
  | succ n ih => rw [readBytesOn, readBytesOn, hbyte, ih]

@[simp] theorem memRead_withOther (m : Mode) (rf : RegFile) (b : Word) (s : State) (a : Word) (n : Nat) :
    memRead (s.withOther m rf b) a n = memRead s a n := by
  rw [memRead_eq_readBytesOn, memRead_eq_readBytesOn, readBytesOn_withOther]

theorem memWrite_withOther (m : Mode) (rf : RegFile) (b : Word) (s : State) (a : Word) (n : Nat) (v : Word) :
    memWrite (s.withOther m rf b) a n v = mapNext (State.withOther m rf b) (memWrite s a n v) := by
  rw [memWrite_eq, memWrite_eq, State.withOther_setMem, State.withOther_mem]
  cases storeRefusalOn platform a n <;> rfl

theorem fetch_withOther {m : Mode} (rf : RegFile) (a : Word) {s : State} (hm : s.mode = m) :
    fetch (s.withOther m rf a) = fetch s := by
  rw [fetch_eq, fetch_eq, State.withOther_pc rf a hm, memRead_withOther]

/-! ### The shapes in which the meanings of instructions end -/

/-- What follows commutes with a function where what goes on does. -/
theorem andThen_mapNext {α : Type} (g : State → State) (o : Host.Outcome α Fault Refusal) (k : α → Result) :
    andThen o (fun v => mapNext g (k v)) = mapNext g (andThen o k) := by cases o <;> rfl

section
variable {m : Mode} (rf : RegFile) (a : Word) {s : State} (hm : s.mode = m)
include hm

theorem writeX_withOther (rd : XReg) (v : Word) :
    writeX rd v (s.withOther m rf a) = mapNext (State.withOther m rf a) (writeX rd v s) := by
  rw [writeX, State.withOther_setX rf a hm, State.withOther_advance rf a ((s.setX_mode rd v).trans hm)]
  rfl

theorem writeFp_withOther (frd : FReg) (v : Word) :
    writeFp frd v (s.withOther m rf a) = mapNext (State.withOther m rf a) (writeFp frd v s) := by
  rw [writeFp, State.withOther_setFp, State.withOther_advance rf a ((s.setFp_mode frd v).trans hm)]
  rfl

theorem deliverX_withOther (rd : XReg) (v : Word) (fl : FFlags) :
    deliverX rd v fl (s.withOther m rf a) = mapNext (State.withOther m rf a) (deliverX rd v fl s) := by
  rw [deliverX, State.withOther_raiseFlags, writeX_withOther rf a ((s.raiseFlags_mode fl).trans hm), deliverX]

theorem deliverFp_withOther (frd : FReg) (r : Rounded) (fl : FFlags) :
    deliverFp frd r fl (s.withOther m rf a) = mapNext (State.withOther m rf a) (deliverFp frd r fl s) := by
  rw [deliverFp, State.withOther_raiseFlags, writeFp_withOther rf a ((s.raiseFlags_mode fl).trans hm), deliverFp]

theorem writeFp_raiseFlags_withOther (frd : FReg) (v : Word) (fl : FFlags) :
    writeFp frd v ((s.withOther m rf a).raiseFlags fl) =
      mapNext (State.withOther m rf a) (writeFp frd v (s.raiseFlags fl)) := by
  rw [State.withOther_raiseFlags, writeFp_withOther rf a ((s.raiseFlags_mode fl).trans hm)]

omit hm in
theorem withRounding_withOther (rm : BitVec 3) (k : Rounding → Result) :
    withRounding rm (s.withOther m rf a) (fun r => mapNext (State.withOther m rf a) (k r)) =
      mapNext (State.withOther m rf a) (withRounding rm s k) := by
  unfold withRounding
  rw [State.withOther_rmCode]
  cases roundingOfCode (s.rmCode rm) <;> rfl

theorem advance_withOther :
    (.next (s.withOther m rf a).advance : Result) = mapNext (State.withOther m rf a) (.next s.advance) := by
  rw [State.withOther_advance rf a hm]
  rfl

theorem setPc_withOther (b : Word) :
    (.next ((s.withOther m rf a).setPc b) : Result) = mapNext (State.withOther m rf a) (.next (s.setPc b)) := by
  rw [State.withOther_setPc rf a hm]
  rfl

theorem linkAndSetPc_withOther (rd : XReg) (v b : Word) :
    (.next (((s.withOther m rf a).setX rd v).setPc b) : Result) =
      mapNext (State.withOther m rf a) (.next ((s.setX rd v).setPc b)) := by
  rw [State.withOther_setX rf a hm, setPc_withOther rf a ((s.setX_mode rd v).trans hm)]

theorem branchTo_withOther (b : Word) :
    branchTo b (s.withOther m rf a) = mapNext (State.withOther m rf a) (branchTo b s) := by
  unfold branchTo
  rw [State.withOther_setPc rf a hm, State.withOther_setPc rf a hm]
  split <;> rfl

theorem branchIf_withOther (taken : Bool) (off : BitVec 12) :
    branchIf taken off (s.withOther m rf a) = mapNext (State.withOther m rf a) (branchIf taken off s) := by
  unfold branchIf
  rw [State.withOther_pc rf a hm, branchTo_withOther rf a hm, advance_withOther rf a hm]
  split <;> rfl

theorem loadX_withOther (rd rs1 : XReg) (imm : BitVec 12) (n : Nat) (ext : Word → Word) :
    loadX rd rs1 imm n ext (s.withOther m rf a) = mapNext (State.withOther m rf a) (loadX rd rs1 imm n ext s) := by
  simp only [loadX, loadThen, State.afterRead_eq, State.withOther_ea rf a hm, memRead_withOther,
    writeX_withOther rf a hm, andThen_mapNext]

theorem execFlw_withOther (frd : FReg) (rs1 : XReg) (imm : BitVec 12) :
    execFlw frd rs1 imm (s.withOther m rf a) = mapNext (State.withOther m rf a) (execFlw frd rs1 imm s) := by
  simp only [execFlw, loadThen, State.afterRead_eq, State.withOther_ea rf a hm, memRead_withOther,
    writeFp_withOther rf a hm, andThen_mapNext]

theorem storeV_withOther (rs1 : XReg) (imm : BitVec 12) (n : Nat) (v : Word) :
    storeV rs1 imm n v (s.withOther m rf a) = mapNext (State.withOther m rf a) (storeV rs1 imm n v s) := by
  rw [storeV, storeV, State.withOther_ea rf a hm, memWrite_withOther, memWrite_eq]
  cases storeRefusalOn platform (s.ea rs1 imm) n with
  | none => exact advance_withOther rf a (s := { s with mem := s.mem.writeBytes _ _ }) hm
  | some r => rfl

theorem raiseTrap_withOther (c : TrapCause) :
    raiseTrap c (s.withOther m rf a) = mapNext (State.withOther m rf a) (raiseTrap c s) := by
  unfold raiseTrap
  rw [State.withOther_mode, hm]
  cases m with
  | user => exact congrArg _ (takeTrap_withOther c rf a hm)
  | machine => rfl

theorem execEret_withOther :
    execEret (s.withOther m rf a) = mapNext (State.withOther m rf a) (execEret s) := by
  unfold execEret
  rw [State.withOther_mode, hm]
  cases m <;> rfl

theorem waitForInterrupt_withOther :
    waitForInterrupt (s.withOther m rf a) = (waitForInterrupt s).withOther m rf a := by
  by_cases hi : s.irq = true
  · by_cases hu : s.mode = .user ∧ s.ie = true
    · obtain rfl : m = .user := hm.symm.trans hu.1
      rw [waitForInterrupt_taken (by simpa using hi) (by simpa using hu.1) (by simpa using hu.2),
        waitForInterrupt_taken hi hu.1 hu.2, State.withOther_setWaiting]
      exact takeTrap_withOther _ rf a hu.1
    · rw [waitForInterrupt_ended (by simpa using hi) (by simpa using hu), waitForInterrupt_ended hi hu,
        State.withOther_setWaiting]
      exact State.withOther_advance rf a hm
  · rw [Bool.not_eq_true] at hi
    rw [waitForInterrupt_paused (by simpa using hi), waitForInterrupt_paused hi, State.withOther_setWaiting]

theorem execPfi_withOther : execPfi (s.withOther m rf a) = mapNext (State.withOther m rf a) (execPfi s) := by
  unfold execPfi
  rw [State.withOther_irq, raiseTrap_withOther rf a hm, advance_withOther rf a hm]
  split <;> rfl

end

/-! ### Every instruction, and the step -/

/-- An instruction executed in mode `m` commutes with replacing the other mode's context. -/
theorem exec_withOther {m : Mode} (rf : RegFile) (a : Word) {s : State} (hm : s.mode = m) (i : Instr) :
    exec i (s.withOther m rf a) = mapNext (State.withOther m rf a) (exec i s) := by
  have hpc := State.withOther_pc rf a hm
  have hx := State.withOther_x rf a hm
  cases i with
  | lui | auipc | ldi | addi | slti | sltui | xori | ori | andi | slli | srli | srai =>
    simp only [exec, execLui, execAuipc, execLdi, execAddi, execSlti, execSltui, execXori, execOri, execAndi, execSlli,
      execSrli, execSrai, hpc, hx, writeX_withOther rf a hm]
  | add | sub | mul | sll | slt | sltu | xor | srl | sra | or | and | mov =>
    simp only [exec, execAdd, execSub, execMul, execSll, execSlt, execSltu, execXor, execSrl, execSra, execOr, execAnd,
      execMov, hx, writeX_withOther rf a hm]
  | fmvXS | fclass | rdcycle | rdcycleh | rdtime | rdtimeh | rdinstret | rdinstreth =>
    simp only [exec, execFmvXS, execFclass, execRdcycle, execRdcycleh, execRdtime, execRdtimeh, execRdinstret,
      execRdinstreth, State.withOther_fp, State.withOther_cycle, State.withOther_time, State.withOther_instret,
      writeX_withOther rf a hm]
  | fsgnj | fsgnjn | fsgnjx | fmov | fneg | fabs | fmvSX =>
    simp only [exec, execFsgnj, execFsgnjn, execFsgnjx, execFmov, execFneg, execFabs, execFmvSX, State.withOther_fp, hx,
      writeFp_withOther rf a hm]
  | fmin | fmax =>
    simp only [exec, execFmin, execFmax, State.withOther_fp, writeFp_raiseFlags_withOther rf a hm]
  | feq | flt | fle => simp only [exec, execFeq, execFlt, execFle, State.withOther_fp, deliverX_withOther rf a hm]
  | fadd | fsub | fmul | fdiv | fsqrt =>
    simp only [exec, execFadd, execFsub, execFmul, execFdiv, execFsqrt, State.withOther_fp, deliverFp_withOther rf a hm,
      withRounding_withOther]
  | fcvtSW | fcvtSWu | fcvtWS | fcvtWuS =>
    simp only [exec, execFcvtSW, execFcvtSWu, execFcvtWS, execFcvtWuS, State.withOther_fp, hx,
      deliverFp_withOther rf a hm, deliverX_withOther rf a hm, withRounding_withOther]
  | nop | fence | fenceI => exact advance_withOther rf a hm
  | jal | call =>
    simp only [exec, execJal, execCall, jumpAndLink, State.withOther_link rf a hm, hpc, linkAndSetPc_withOther rf a hm]
  | jalr =>
    simp only [exec, execJalr, jumpAndLinkReg, State.withOther_link rf a hm, hx, linkAndSetPc_withOther rf a hm]
  | ret => simp only [exec, execRet, hx, setPc_withOther rf a hm]
  | beq | bne | blt | bge | bltu | bgeu =>
    simp only [exec, execBeq, execBne, execBlt, execBge, execBltu, execBgeu, hx, branchIf_withOther rf a hm]
  | bra => simp only [exec, execBra, hpc, branchTo_withOther rf a hm]
  | lb | lh | lw | lbu | lhu => exact loadX_withOther rf a hm _ _ _ _ _
  | flw => exact execFlw_withOther rf a hm _ _ _
  | sb | sh | sw | fsw =>
    simp only [exec, execSb, execSh, execSw, execFsw, hx, State.withOther_fp, storeV_withOther rf a hm]
  | ecall | ebreak => exact raiseTrap_withOther rf a hm _
  | eret => exact execEret_withOther rf a hm
  | wfi => exact congrArg Host.Outcome.next (waitForInterrupt_withOther rf a hm)
  | pfi => exact execPfi_withOther rf a hm

/-- The same of the fetch, decoding and execution of an instruction, refusals included. -/
theorem stepInstr_withOther {m : Mode} (rf : RegFile) (a : Word) {s : State} (hm : s.mode = m) :
    stepInstr (s.withOther m rf a) = mapNext (State.withOther m rf a) (stepInstr s) := by
  simp only [stepInstr, State.afterRead_eq]
  rw [fetch_withOther rf a hm, ← andThen_mapNext]
  congr 1
  funext w
  cases decode w with
  | error e => rfl
  | ok i =>
    simp only [exec_withOther rf a hm]
    cases exec i s with
    | next u => exact congrArg Host.Outcome.next (finishInstr_withOther m rf a u)
    | fault e => rfl
    | refused r => rfl

/-- A step from mode `m` commutes with replacing the other mode's registers and program counter. -/
theorem step_withOther {m : Mode} (rf : RegFile) (a : Word) {s : State} (hm : s.mode = m) :
    step (s.withOther m rf a) = mapNext (State.withOther m rf a) (step s) := by
  unfold step
  rw [State.withOther_waiting, State.withOther_interruptReady, waitForInterrupt_withOther rf a hm,
    finishInstr_withOther, stepInstr_withOther rf a hm]
  split
  · rfl
  · split
    · rename_i hr
      have hu := (interruptReady_iff.1 hr).1
      obtain rfl : m = .user := hm.symm.trans hu
      rw [takeTrap_withOther _ rf a hu, elapse_withOther]
      rfl
    · rfl

/-- Settles O56: the frame from the events of a step, the independence from `step_withOther`. -/
theorem otherContextIsolated : Obligations.OtherContextIsolated :=
  ⟨fun _ _ h => ⟨fun hm => (step_user_keeps_machine h hm).1, fun hm => (step_machine_keeps_user h hm).1⟩,
    fun _ rf a => ⟨fun hm => step_withOther rf a hm, fun hm => step_withOther rf a hm⟩⟩

end Sys2Proof.Machine
end

section
/-! The register files, the loads that fault, the wait of WFI and the CSR numbers. -/

namespace Sys2Proof.Machine

/-- Settles O11: from what a register file reads after a write. -/
theorem registerFiles : Obligations.RegisterFiles := by
  intro s r q v
  refine ⟨?_, s.setX_x r q v, s.setFp_fp r q v, s.fp_zero, s.setX_zero v, s.setFp_zero v⟩
  by_cases hr : r = 0
  · rw [hr, State.x_zero, if_pos rfl]
  · rw [State.x_eq, if_neg hr]

/-- A load faults where its read does. -/
theorem loadThen_fault {rs1 : XReg} {imm : BitVec 12} {n : Nat} {s : State} {e : Fault} {k : Word → State → Result}
    (h : memRead s (s.ea rs1 imm) n = .fault e) : loadThen rs1 imm n s k = .fault e := by
  rw [loadThen, h, andThen]

/-- Settles O22: MemRead ends with the first byte that has no value. -/
theorem unwrittenLoadFaults : Obligations.UnwrittenLoadFaults := by
  rintro s rd rs1 imm k a rfl - hnone hread
  have hmem {n : Nat} (hk : k < n) := memRead_fault hk hread hnone
  exact ⟨fun hk => ⟨loadThen_fault (hmem hk), loadThen_fault (hmem hk)⟩,
    fun hk => ⟨loadThen_fault (hmem hk), loadThen_fault (hmem hk)⟩,
    fun hk => ⟨loadThen_fault (hmem hk), loadThen_fault (hmem hk)⟩⟩

/-! ### The wait of WFI (R38, R264, R295) -/

/-- The step of a waiting core. -/
theorem step_waiting {s : State} (hw : s.waiting = true) : step s = .next (finishInstr (waitForInterrupt s)) := by
  rw [step, if_pos hw]

/-- Settles O48: the three outcomes of the wait, each ended as a step ends. -/
theorem waitingSteps : Obligations.WaitingSteps := by
  intro s hw
  rw [step_waiting hw]
  refine ⟨fun hi => ⟨_, by rw [waitForInterrupt_waiting hw hi, finishInstr_of_waiting hw]; rfl⟩, fun hi => ⟨_, rfl, ?_⟩⟩
  by_cases hu : s.mode = .user ∧ s.ie = true
  · obtain ⟨hm, hie⟩ := hu
    rw [waitForInterrupt_taken hi hm hie, takeTrap, finishInstr_of_not_waiting rfl]
    exact ⟨rfl, rfl, fun _ _ => ⟨rfl, congrArg (· + 4) (State.pc_of_user hm), rfl, hie, rfl⟩,
      fun h => absurd ⟨hm, hie⟩ h, rfl, rfl, rfl, rfl⟩
  · rw [waitForInterrupt_ended hi hu, finishInstr_of_not_waiting (State.advance_waiting _)]
    refine ⟨by simp, by simp, fun hm hie => absurd ⟨hm, hie⟩ hu, fun _ => ?_, by simp, by simp, by simp, by simp⟩
    exact ⟨by simp, State.advance_pc _, by simp, by simp⟩

/-! ### Control and status registers (R36, R102) -/

/-- A meaning that ends by writing an integer register does that and nothing else. -/
theorem completesX_of_writeX {i : Instr} {s : State} {rd : XReg} {v : Word} (h : exec i s = writeX rd v s) :
    CompletesX i s rd v {} (s.pc + 4) := by
  refine ⟨(s.setX rd v).advance, h, fun r => ?_, by simp, by simp, fun r => by simp, ?_, ?_, fun a => by simp⟩
  · rw [State.advance_x, State.setX_x]
  · exact (OrdinaryEffect.of_writeX rfl).control
  · exact (OrdinaryEffect.of_writeX rfl).other

/-- A counter read's code names the CSR it reads. -/
theorem counterRead_namesCsr {i : Instr} {s : State} {rd : XReg} {v : Word} (code : BitVec 12)
    (hi : encode i = encodeSys code rdFunct3 rd) (hcsr : s.csr code = some v) (hx : exec i s = writeX rd v s) :
    ∃ v, s.csr ((encode i).extractLsb' 20 12) = some v ∧ CompletesX i s rd v {} (s.pc + 4) :=
  ⟨v, by rw [hi, csrCode_encodeSys, hcsr], completesX_of_writeX hx⟩

/-- Settles O54: each counter read writes the CSR that its code names. -/
theorem csrNumbers : Obligations.CsrNumbers := by
  intro s rd
  refine ⟨?_, s.csr_sarg, s.csr_ne_none_iff⟩
  obtain ⟨hcycle, hcycleh, htime, htimeh, hinstret, hinstreth⟩ := s.csr_counters
  rintro i (rfl | rfl | rfl | rfl | rfl | rfl)
  · exact counterRead_namesCsr _ rfl hcycle rfl
  · exact counterRead_namesCsr _ rfl hcycleh rfl
  · exact counterRead_namesCsr _ rfl htime rfl
  · exact counterRead_namesCsr _ rfl htimeh rfl
  · exact counterRead_namesCsr _ rfl hinstret rfl
  · exact counterRead_namesCsr _ rfl hinstreth rfl

end Sys2Proof.Machine
end

section
/-! The bytes of a word, and the words that bytes spell (spec/20_memory.md R62, R63). -/

namespace Sys2Proof

/-- The number of a concatenation whose low part is a byte. -/
theorem toNat_append_byte {n : Nat} (x : BitVec n) (b : Byte) : (x ++ b).toNat = b.toNat + 256 * x.toNat := by
  rw [BitVec.toNat_append, ← Nat.shiftLeft_add_eq_or_of_lt b.isLt, Nat.shiftLeft_eq]
  omega

theorem wordOfBytes_one (b0 : Byte) : wordOfBytes [b0] = BitVec.ofNat 32 b0.toNat := rfl

/-- The byte at the lowest address is the least significant (D1, log 7). -/
theorem wordOfBytes_two (b0 b1 : Byte) : wordOfBytes [b0, b1] = BitVec.ofNat 32 (b1 ++ b0).toNat := by
  rw [toNat_append_byte]
  rfl

theorem wordOfBytes_four (b0 b1 b2 b3 : Byte) : wordOfBytes [b0, b1, b2, b3] = b3 ++ b2 ++ b1 ++ b0 := by
  have hnum : natOfBytes [b0, b1, b2, b3] = (b3 ++ b2 ++ b1 ++ b0).toNat := by
    simp only [toNat_append_byte]
    rfl
  exact (congrArg (BitVec.ofNat 32) hnum).trans ((BitVec.ofNat_toNat _ _).trans (BitVec.setWidth_eq _))

/-- The low bits of a word hold what it was extended from. -/
theorem extract_low_ofNat {n : Nat} (x : BitVec n) (hn : n ≤ 32) :
    (BitVec.ofNat 32 x.toNat).extractLsb' 0 n = x := by
  rw [BitVec.ofNat_toNat]
  apply BitVec.eq_of_getLsbD_eq
  intro i hi
  simp only [BitVec.getLsbD_extractLsb', BitVec.getLsbD_setWidth, hi, decide_true, Bool.true_and, Nat.zero_add,
    Bool.and_eq_right_iff_imp, decide_eq_true_eq]
  omega

/-- The bytes that lie in memory for a word, by their positions in it. -/
theorem bytesOfWord_eq_map (n : Nat) (w : Word) :
    bytesOfWord n w = (List.range n).map fun k => w.extractLsb' (8 * k) 8 :=
  List.ext_getElem (by simp [Machine.bytesOfWord_eq, Machine.lowBytes_length]) fun k hk _ => by
    simp only [Machine.bytesOfWord_eq, Machine.lowBytes_getElem, List.getElem_map, List.getElem_range]

@[simp] theorem bytesOfWord_length (n : Nat) (w : Word) : (bytesOfWord n w).length = n := by
  simp [bytesOfWord_eq_map]

theorem bytesOfWord_getElem (n : Nat) (w : Word) (k : Nat) (h : k < (bytesOfWord n w).length) :
    (bytesOfWord n w)[k] = w.extractLsb' (8 * k) 8 := Machine.lowBytes_getElem n w k h

/-- Neighbouring fields, put together. -/
theorem extract_join {n : Nat} (x : BitVec n) (s m l : Nat) :
    x.extractLsb' (s + m) l ++ x.extractLsb' s m = x.extractLsb' s (l + m) :=
  BitVec.extractLsb'_append_extractLsb'_eq_extractLsb' rfl

/-- A word is spelt by its four bytes. -/
theorem wordOfBytes_bytesOfWord (w : Word) : wordOfBytes (bytesOfWord 4 w) = w := by
  have hbytes : bytesOfWord 4 w =
      [w.extractLsb' 0 8, w.extractLsb' 8 8, w.extractLsb' 16 8, w.extractLsb' 24 8] := bytesOfWord_eq_map 4 w
  rw [hbytes, wordOfBytes_four]
  calc w.extractLsb' 24 8 ++ w.extractLsb' 16 8 ++ w.extractLsb' 8 8 ++ w.extractLsb' 0 8
      = w.extractLsb' 16 16 ++ w.extractLsb' 8 8 ++ w.extractLsb' 0 8 := by rw [← extract_join w 16 8 8]
    _ = w.extractLsb' 8 24 ++ w.extractLsb' 0 8 := by rw [← extract_join w 8 8 16]
    _ = w.extractLsb' 0 32 := extract_join w 0 8 24
    _ = w := extract_all w

end Sys2Proof
end

section
/-! Decoding the word of a well-formed instruction gives the instruction back (spec/30_encoding.md R90 to R117): the fields
that formats split over several columns, then the decoder on the words of each format. -/

namespace Sys2Proof

/-! ### Fields that are split or shared (R94, R97, R98, R101) -/

/-- A field of a field. -/
theorem extract_extract {n : Nat} (x : BitVec n) (s l s' l' : Nat) (h : s' + l' ≤ l) :
    (x.extractLsb' s l).extractLsb' s' l' = x.extractLsb' (s + s') l' := by
  apply BitVec.eq_of_getLsbD_eq
  intro i hi
  have hl : s' + i < l := by omega
  simp [hi, hl, Nat.add_assoc]

/-- Format MS has the columns of format R2, the immediate in the first and the fifth. -/
theorem immS_encodeS (imm : BitVec 12) (rs2 rs1 : BitVec 5) (f3 : BitVec 3) (op : BitVec 7) :
    immSOf (encodeS imm rs2 rs1 f3 op) = imm := by
  have hhigh : (encodeS imm rs2 rs1 f3 op).extractLsb' 25 7 = imm.extractLsb' 5 7 := funct7_encodeR _ rs2 rs1 f3 _ op
  have hlow : (encodeS imm rs2 rs1 f3 op).extractLsb' 7 5 = imm.extractLsb' 0 5 := rd_encodeR _ rs2 rs1 f3 _ op
  rw [immSOf, hhigh, hlow]
  exact (extract_join imm 0 5 7).trans (extract_all imm)

theorem funct7_encodeB (off : BitVec 12) (rs2 rs1 : BitVec 5) (f3 : BitVec 3) :
    funct7Of (encodeB off rs2 rs1 f3) = off.extractLsb' 11 1 ++ off.extractLsb' 4 6 :=
  (extract_append_high _ 99#7 _ 7 (by omega)).trans
    ((extract_append_high _ (off.extractLsb' 10 1) _ 7 (by omega)).trans
    ((extract_append_high _ (off.extractLsb' 0 4) _ 7 (by omega)).trans
    ((extract_append_high _ f3 _ 7 (by omega)).trans
    ((extract_append_high _ rs1 _ 7 (by omega)).trans
    ((extract_append_high _ rs2 _ 7 (by omega)).trans
    (extract_all _))))))

theorem offB_encodeB (off : BitVec 12) (rs2 rs1 : BitVec 5) (f3 : BitVec 3) :
    offBOf (encodeB off rs2 rs1 f3) = off := by
  have hf7 := funct7_encodeB off rs2 rs1 f3
  have h12 : (encodeB off rs2 rs1 f3).extractLsb' 31 1 = off.extractLsb' 11 1 :=
    calc _ = (funct7Of (encodeB off rs2 rs1 f3)).extractLsb' 6 1 := (extract_extract _ 25 7 6 1 (by omega)).symm
      _ = _ := by rw [hf7, extract_append_high _ _ _ _ (by omega), extract_all]
  have h10 : (encodeB off rs2 rs1 f3).extractLsb' 25 6 = off.extractLsb' 4 6 :=
    calc _ = (funct7Of (encodeB off rs2 rs1 f3)).extractLsb' 0 6 := (extract_extract _ 25 7 0 6 (by omega)).symm
      _ = _ := by rw [hf7, extract_append_low _ _ _ _ (by omega), extract_all]
  have h11 : (encodeB off rs2 rs1 f3).extractLsb' 7 1 = off.extractLsb' 10 1 :=
    (extract_append_high _ 99#7 _ 1 (by omega)).trans
      ((extract_append_low _ (off.extractLsb' 10 1) _ 1 (by omega)).trans (extract_all _))
  have h4 : (encodeB off rs2 rs1 f3).extractLsb' 8 4 = off.extractLsb' 0 4 :=
    (extract_append_high _ 99#7 _ 4 (by omega)).trans
      ((extract_append_high _ (off.extractLsb' 10 1) _ 4 (by omega)).trans
      ((extract_append_low _ (off.extractLsb' 0 4) _ 4 (by omega)).trans (extract_all _)))
  rw [offBOf, h12, h11, h10, h4, extract_join off 10 1 1, extract_join off 4 6 2]
  exact (extract_join off 0 4 8).trans (extract_all off)

/-- Format JAL has the columns of format U, its immediate in another order. -/
theorem offJ_encodeJ (off : BitVec 20) (rd : BitVec 5) : offJOf (encodeJ off rd) = off := by
  have himm : immUOf (encodeJ off rd) =
      off.extractLsb' 19 1 ++ off.extractLsb' 0 10 ++ off.extractLsb' 10 1 ++ off.extractLsb' 11 8 :=
    immU_encodeU _ rd 111
  have field (s l : Nat) (h : s + l ≤ 20) :
      (encodeJ off rd).extractLsb' (12 + s) l = (immUOf (encodeJ off rd)).extractLsb' s l :=
    (extract_extract _ 12 20 s l h).symm
  have h20 : (encodeJ off rd).extractLsb' 31 1 = off.extractLsb' 19 1 := by
    rw [field 19 1 (by omega), himm]
    exact (extract_append_high _ _ _ 1 (by omega)).trans ((extract_append_high _ _ _ 1 (by omega)).trans
      ((extract_append_high _ _ _ 1 (by omega)).trans (extract_all _)))
  have h12 : (encodeJ off rd).extractLsb' 12 8 = off.extractLsb' 11 8 := by
    rw [field 0 8 (by omega), himm]
    exact (extract_append_low _ _ _ 8 (by omega)).trans (extract_all _)
  have h11 : (encodeJ off rd).extractLsb' 20 1 = off.extractLsb' 10 1 := by
    rw [field 8 1 (by omega), himm]
    exact (extract_append_high _ _ _ 1 (by omega)).trans
      ((extract_append_low _ _ _ 1 (by omega)).trans (extract_all _))
  have h1 : (encodeJ off rd).extractLsb' 21 10 = off.extractLsb' 0 10 := by
    rw [field 9 10 (by omega), himm]
    exact (extract_append_high _ _ _ 10 (by omega)).trans ((extract_append_high _ _ _ 10 (by omega)).trans
      ((extract_append_low _ _ _ 10 (by omega)).trans (extract_all _)))
  rw [offJOf, h20, h12, h11, h1, extract_join off 11 8 1, extract_join off 10 1 9]
  exact (extract_join off 0 10 10).trans (extract_all off)

/-- Format FENCE has the columns of format RI, the sets in the first. -/
theorem funct12_encodeFence (pred succ : BitVec 4) (f3 : BitVec 3) :
    funct12Of (encodeFence pred succ f3) = 0#4 ++ pred ++ succ := immI_encodeI _ 0 f3 0 15

theorem sets_encodeFence (pred succ : BitVec 4) (f3 : BitVec 3) :
    (encodeFence pred succ f3).extractLsb' 28 4 = 0 ∧ (encodeFence pred succ f3).extractLsb' 24 4 = pred ∧
      (encodeFence pred succ f3).extractLsb' 20 4 = succ := by
  have field (s : Nat) (h : s + 4 ≤ 12) :
      (encodeFence pred succ f3).extractLsb' (20 + s) 4 = (0#4 ++ pred ++ succ).extractLsb' s 4 := by
    rw [← funct12_encodeFence pred succ f3]
    exact (extract_extract _ 20 12 s 4 h).symm
  refine ⟨(field 8 (by omega)).trans ?_, (field 4 (by omega)).trans ?_, (field 0 (by omega)).trans ?_⟩
  · exact (extract_append_high _ _ _ 4 (by omega)).trans
      ((extract_append_high _ _ _ 4 (by omega)).trans (extract_all _))
  · exact (extract_append_high _ _ _ 4 (by omega)).trans
      ((extract_append_low _ _ _ 4 (by omega)).trans (extract_all _))
  · exact (extract_append_low _ _ _ 4 (by omega)).trans (extract_all _)

/-! ### The decoder on encoded words -/

/-- The instruction that an extended mnemonic abbreviates (R117); every other instruction itself. -/
def Instr.base : Instr → Instr
  | .call off => .jal 1 off
  | .ret => .jalr 0 1 0
  | .bra off => .beq 0 0 off
  | .nop => .addi 0 0 0
  | .ldi rd imm => .ori rd 0 imm
  | .mov rd rs1 => .or rd rs1 0
  | .fmov frd frs1 => .fsgnj frd frs1 frs1
  | .fneg frd frs1 => .fsgnjn frd frs1 frs1
  | .fabs frd frs1 => .fsgnjx frd frs1 frs1
  | i => i

/-- The decoder of the 73 rows reads an instruction's word as the instruction it stands for. -/
theorem decodeBase_encode (i : Instr) : decodeBase (encode i) = .ok i.base := by
  cases i with
  | lui | auipc =>
    simp [encode, decodeBase, opcode_encodeU, rd_encodeU, immU_encodeU]
    rfl
  | jal | call =>
    simp [encode, decodeBase, opcode_encodeJ, rd_encodeJ, offJ_encodeJ]
    rfl
  | jalr | ret | flw =>
    simp [encode, decodeBase, opcode_encodeI, funct3_encodeI, rd_encodeI, rs1_encodeI, immI_encodeI]
    rfl
  | beq | bne | blt | bge | bltu | bgeu | bra =>
    simp [encode, decodeBase, decodeBranch, opcode_encodeB, funct3_encodeB, rs1_encodeB, rs2_encodeB,
      offB_encodeB]
    rfl
  | lb | lh | lw | lbu | lhu =>
    simp [encode, decodeBase, decodeLoad, opcode_encodeI, funct3_encodeI, rd_encodeI, rs1_encodeI,
      immI_encodeI]
    rfl
  | sb | sh | sw | fsw =>
    simp [encode, decodeBase, decodeStore, opcode_encodeS, funct3_encodeS, rs1_encodeS, rs2_encodeS,
      immS_encodeS]
    rfl
  | addi | nop | slti | sltui | xori | ori | ldi | andi =>
    simp [encode, decodeBase, decodeOpImm, opcode_encodeI, funct3_encodeI, rd_encodeI, rs1_encodeI,
      immI_encodeI]
    rfl
  | slli | srli | srai =>
    simp [encode, decodeBase, decodeOpImm, sraiFunct7, encodingVariant, opcode_encodeR, funct3_encodeR,
      rd_encodeR, rs1_encodeR, rs2_encodeR, funct7_encodeR]
    rfl
  | add | sub | mul | sll | slt | sltu | xor | srl | sra | or | mov | and =>
    simp [encode, decodeBase, decodeOp, opcode_encodeR, funct3_encodeR, rd_encodeR, rs1_encodeR,
      rs2_encodeR, funct7_encodeR]
    rfl
  | fadd | fsub | fmul | fdiv | fsqrt | fcvtWS | fcvtWuS | fcvtSW | fcvtSWu =>
    simp [encode, decodeBase, decodeFloat, decodeFloatRm, fpFunct7, fcvtSFunct5, encodingVariant,
      opcode_encodeR, funct3_encodeR, rd_encodeR, rs1_encodeR, rs2_encodeR, funct7_encodeR]
    rfl
  | fmin | fmax | fsgnj | fmov | fsgnjn | fneg | fsgnjx | fabs | feq | flt | fle | fmvXS | fclass | fmvSX =>
    simp [encode, decodeBase, decodeFloat, decodeFloatRm, decodeFloatSel, fpFunct7, fsgnjFunct5,
      fcvtSFunct5, encodingVariant, opcode_encodeR, funct3_encodeR, rd_encodeR, rs1_encodeR, rs2_encodeR,
      funct7_encodeR]
    rfl
  | fence pred succ =>
    obtain ⟨hzero, hpred, hsucc⟩ := sets_encodeFence pred succ 0#3
    simp [encode, decodeBase, decodeFence, opcode_encodeFence, funct3_encodeFence, rd_encodeFence,
      rs1_encodeFence, hzero, hpred, hsucc]
    rfl
  | fenceI =>
    simp [encode, decodeBase, decodeFence, opcode_encodeFence, funct3_encodeFence, rd_encodeFence,
      rs1_encodeFence, funct12_encodeFence]
    rfl
  | ecall | ebreak | eret | wfi | pfi | rdcycle | rdcycleh | rdtime | rdtimeh | rdinstret | rdinstreth =>
    simp [encode, decodeBase, decodeSystem, wfiCode, rdFunct3, encodingVariant, opcode_encodeSys,
      funct3_encodeSys, rd_encodeSys, rs1_encodeSys, funct12_encodeSys]
    rfl

/-- The decoder keeps the spelling of an instruction whose operands no extended mnemonic fixes. -/
theorem spell_of_not {c : Prop} [Decidable c] {i e : Instr} (hi : i.extended = if c then some e else none)
    (hc : ¬ c) : i.spell = i := by
  rw [Instr.spell, hi, if_neg hc, Option.getD_none]

/-- The decoder's spelling of what a well-formed instruction stands for is the instruction (log 35). -/
theorem spell_base {i : Instr} (h : i.wellFormed = true) : i.base.spell = i := by
  cases i with
  | jal | ori | or | fsgnj | fsgnjn | fsgnjx => exact spell_of_not rfl (by simpa [Instr.wellFormed] using h)
  | jalr | beq | addi =>
    exact spell_of_not rfl (by simpa [Instr.wellFormed, imp_iff_not_or, or_assoc] using h)
  | fmov | fneg | fabs => exact congrArg (Option.getD · _) (if_pos rfl)
  | _ => rfl

/-- Decoding the word of a well-formed instruction gives the instruction back. -/
theorem decode_encode {i : Instr} (h : i.wellFormed = true) : decode (encode i) = .ok i := by
  simp only [decode, decodeBase_encode, spell_base h]

end Sys2Proof
end

section
/-! Loads, stores and fences on the platform of this model (spec/20_memory.md R61 to R65, R69, R74;
spec/42_memory_instructions.md). -/

namespace Sys2Proof.Machine

/-! ### Where bytes lie -/

/-- The bytes further on in an access. -/
theorem BytesAt.drop {s : State} {a : Word} {bs : List Byte} (h : BytesAt s a bs) (m : Nat) :
    BytesAt s (a + BitVec.ofNat 32 m) (bs.drop m) := by
  intro k hk
  rw [add_ofNat_add, List.getElem_drop]
  exact h (m + k) (by rw [List.length_drop] at hk; omega)

/-- The first bytes of an access. -/
theorem BytesAt.take {s : State} {a : Word} {bs : List Byte} (h : BytesAt s a bs) (m : Nat) :
    BytesAt s a (bs.take m) := by
  intro k hk
  rw [List.getElem_take]
  exact h k (by rw [List.length_take] at hk; omega)

/-- Readable bytes are what MemRead answers (R63). -/
theorem memRead_of_bytesAt {s : State} {a : Word} {bs : List Byte} (h : BytesAt s a bs) :
    memRead s a bs.length = .next (wordOfBytes bs) := memRead_eq_next.2 ⟨bs, rfl, h, rfl⟩

/-- The bytes of a store to ram can be read back (R65). -/
theorem bytesAt_writeBytes {s : State} {a : Word} {bs : List Byte} (hram : AllRam a bs.length)
    (hlen : bs.length ≤ 2 ^ 32) : BytesAt { s with mem := s.mem.writeBytes a bs } a bs :=
  fun k hk => ⟨.inl (hram k hk), Memory.read_writeBytes_self bs s.mem a hlen k hk⟩

/-- The effective address adds the base and the displacement as signed numbers (R61). -/
theorem State.ea_eq_ofInt (s : State) (rs1 : XReg) (imm : BitVec 12) :
    s.ea rs1 imm = BitVec.ofInt 32 ((s.x rs1).toInt + imm.toInt) := by
  rw [BitVec.ofInt_add, BitVec.ofInt_toInt]
  rfl

/-! ### The frames of instructions that end by going on at the next instruction -/

/-- An instruction that only goes on at the next one changes nothing else. -/
theorem completesPc_of_advance {i : Instr} {s : State} (h : exec i s = .next s.advance) :
    CompletesPc i s (s.pc + 4) :=
  ⟨s.advance, h, by simp, fun r => by simp, fun r => by simp, by simp, (OrdinaryEffect.advance s).control,
    (OrdinaryEffect.advance s).other, fun a => by simp⟩

/-- A meaning that ends by writing a floating-point register does that and nothing else. -/
theorem completesFp_of_writeFp {i : Instr} {s : State} {frd : FReg} {v : Word} (h : exec i s = writeFp frd v s) :
    CompletesFp i s frd v {} := by
  refine ⟨(s.setFp frd v).advance, h, fun r => ?_, by simp, by simp, fun r => by simp, ?_, ?_, fun a => by simp⟩
  · rw [State.advance_fp, State.setFp_fp]
  · exact (OrdinaryEffect.of_writeFp rfl).control
  · exact (OrdinaryEffect.of_writeFp rfl).other

/-- Settles O18: both fences do nothing but go on. -/
theorem fencesAreNops : Obligations.FencesAreNops :=
  fun _ _ _ => ⟨completesPc_of_advance rfl, completesPc_of_advance rfl⟩

/-! ### Loads -/

/-- A load of readable bytes goes on with the word they spell, in the same state. -/
theorem loadThen_of_bytesAt {rs1 : XReg} {imm : BitVec 12} {s : State} {bs : List Byte}
    (h : BytesAt s (s.ea rs1 imm) bs) (k : Word → State → Result) :
    loadThen rs1 imm bs.length s k = k (wordOfBytes bs) s := by
  rw [loadThen, memRead_of_bytesAt h, andThen_next, State.afterRead_eq]

/-- A load of readable bytes delivers the extended word that they spell. -/
theorem completesX_of_loadX {i : Instr} {s : State} {rd rs1 : XReg} {imm : BitVec 12} {bs : List Byte}
    {ext : Word → Word} (hx : exec i s = loadX rd rs1 imm bs.length ext s) (h : BytesAt s (s.ea rs1 imm) bs) :
    CompletesX i s rd (ext (wordOfBytes bs)) {} (s.pc + 4) :=
  completesX_of_writeX (hx.trans (loadThen_of_bytesAt h _))

/-! What the narrow loads extend (R191, R192, R194, R195). -/

theorem sext8_wordOfBytes (b0 : Byte) : sext8 (wordOfBytes [b0]) = BitVec.ofInt 32 b0.toInt := by
  rw [wordOfBytes_one, sext8, extract_low_ofNat b0 (by omega), BitVec.signExtend]

theorem zext8_wordOfBytes (b0 : Byte) : zext8 (wordOfBytes [b0]) = BitVec.ofNat 32 b0.toNat := by
  rw [wordOfBytes_one, zext8, extract_low_ofNat b0 (by omega), BitVec.ofNat_toNat]

theorem sext16_wordOfBytes (b0 b1 : Byte) :
    sext16 (wordOfBytes [b0, b1]) = BitVec.ofInt 32 (b1 ++ b0).toInt := by
  rw [wordOfBytes_two, sext16, extract_low_ofNat (b1 ++ b0) (by omega), BitVec.signExtend]

theorem zext16_wordOfBytes (b0 b1 : Byte) :
    zext16 (wordOfBytes [b0, b1]) = BitVec.ofNat 32 (b1 ++ b0).toNat := by
  rw [wordOfBytes_two, zext16, extract_low_ofNat (b1 ++ b0) (by omega), BitVec.ofNat_toNat]

/-! The unsigned and the word loads, which LoadsReadStores uses too. -/

theorem completes_lbu {s : State} {rd rs1 : XReg} {imm : BitVec 12} {b0 : Byte}
    (h : BytesAt s (s.ea rs1 imm) [b0]) :
    CompletesX (.lbu rd rs1 imm) s rd (BitVec.ofNat 32 b0.toNat) {} (s.pc + 4) :=
  zext8_wordOfBytes b0 ▸ completesX_of_loadX rfl h

theorem completes_lhu {s : State} {rd rs1 : XReg} {imm : BitVec 12} {b0 b1 : Byte}
    (h : BytesAt s (s.ea rs1 imm) [b0, b1]) :
    CompletesX (.lhu rd rs1 imm) s rd (BitVec.ofNat 32 (b1 ++ b0).toNat) {} (s.pc + 4) :=
  zext16_wordOfBytes b0 b1 ▸ completesX_of_loadX rfl h

/-- A word load delivers the word that the bytes spell, as it is. -/
theorem completes_lw_flw {s : State} {rd rs1 : XReg} {imm : BitVec 12} {bs : List Byte} (hlen : bs.length = 4)
    (h : BytesAt s (s.ea rs1 imm) bs) :
    CompletesX (.lw rd rs1 imm) s rd (wordOfBytes bs) {} (s.pc + 4) ∧
      CompletesFp (.flw rd rs1 imm) s rd (wordOfBytes bs) {} :=
  ⟨completesX_of_loadX (ext := fun v => v) (hlen ▸ rfl) h,
    completesFp_of_writeFp (hlen ▸ loadThen_of_bytesAt h _ : loadThen rs1 imm 4 s _ = _)⟩

/-- Settles O19: each load of readable bytes, by its width. -/
theorem loadForms : Obligations.LoadForms := by
  intro s rd rs1 imm b0 b1 b2 b3
  refine ⟨s.ea_eq_ofInt rs1 imm, fun h => ⟨?_, completes_lbu h⟩, fun h => ⟨?_, completes_lhu h⟩, fun h => ?_⟩
  · rw [← sext8_wordOfBytes]
    exact completesX_of_loadX rfl h
  · rw [← sext16_wordOfBytes]
    exact completesX_of_loadX rfl h
  · rw [← wordOfBytes_four]
    exact completes_lw_flw rfl h

/-! ### Stores -/

/-- A store of ram bytes does that and nothing else. -/
theorem completesStore_of_storeV {i : Instr} {s : State} {rs1 : XReg} {imm : BitVec 12} {n : Nat} {v : Word}
    (h : exec i s = storeV rs1 imm n v s) (hn : n ≤ 2 ^ 32) (hram : AllRam (s.ea rs1 imm) n) :
    CompletesStore i s (s.ea rs1 imm) n v := by
  have hlen : (bytesOfWord n v).length = n := bytesOfWord_length n v
  have hstore := (storeV_eq_next (v := v)).2 ⟨hram, rfl⟩
  have heffect := OrdinaryEffect.of_storeV hstore
  refine ⟨_, h.trans hstore, fun k hk => ?_, fun b hb => ?_, State.advance_pc _, fun r => State.advance_x _ r,
    fun r => State.advance_fp _ r, State.advance_fflags _, heffect.control, heffect.other⟩
  · rw [State.advance_mem, Memory.read_writeBytes_self _ _ _ (by omega) k (by omega), bytesOfWord_getElem]
  · rw [State.advance_mem, Memory.read_writeBytes_other]
    exact fun k hk e => hb k (by omega) (BitVec.eq_of_toNat_eq e)

/-- Settles O20: the four stores, by their width and source. -/
theorem storeForms : Obligations.StoreForms := fun _ _ _ _ =>
  ⟨completesStore_of_storeV rfl (by omega), completesStore_of_storeV rfl (by omega),
    completesStore_of_storeV rfl (by omega), completesStore_of_storeV rfl (by omega)⟩

/-- After a word store that completed, its four bytes can be read. -/
theorem bytesAt_of_storeV {rs1 : XReg} {imm : BitVec 12} {v : Word} {s t : State} (h : storeV rs1 imm 4 v s = .next t) :
    BytesAt t (s.ea rs1 imm) (bytesOfWord 4 v) := by
  obtain ⟨hram, rfl⟩ := storeV_eq_next.1 h
  intro k hk
  rw [State.advance_mem]
  exact bytesAt_writeBytes (by rwa [bytesOfWord_length]) (by rw [bytesOfWord_length]; omega) k hk

/-- Readable bytes at an aligned program counter are what is fetched (R67, R76). -/
theorem fetch_of_bytesAt {s : State} {bs : List Byte} (hlen : bs.length = 4) (ha : Aligned s.pc)
    (h : BytesAt s s.pc bs) : fetch s = .next (wordOfBytes bs) :=
  fetch_eq_next.2 ⟨ha, hlen ▸ memRead_of_bytesAt h⟩

/-- Settles O21: the bytes of the store are there, so each load of some of them answers their part of the word. -/
theorem loadsReadStores : Obligations.LoadsReadStores := by
  intro s t v a rd rs1 imm hstore
  have hbytes : BytesAt t a (bytesOfWord 4 v) := by
    obtain ⟨rs2, rs, imm', h, rfl, rfl⟩ | ⟨rs2, rs, imm', h, rfl, rfl⟩ := hstore
    · exact bytesAt_of_storeV h
    · exact bytesAt_of_storeV h
  have hlen : (bytesOfWord 4 v).length = 4 := bytesOfWord_length 4 v
  refine ⟨fun k hk ha => ?_, fun ha => ?_, fun ha => ?_, fun ha => ?_, fun hpc ha => ?_⟩
  · have hbyte : ((bytesOfWord 4 v).drop k).take 1 = [v.extractLsb' (8 * k) 8] := by
      rw [List.drop_eq_getElem_cons (by omega), bytesOfWord_getElem]
      rfl
    exact completes_lbu (ha ▸ hbyte ▸ (hbytes.drop k).take 1)
  · rw [← extract_join v 0 8 8]
    exact completes_lhu (ha ▸ hbytes.take 2)
  · rw [← extract_join v 16 8 8]
    exact completes_lhu (ha ▸ (hbytes.drop 2).take 2)
  · have hload := completes_lw_flw (s := t) (rd := rd) (rs1 := rs1) (imm := imm) hlen (ha ▸ hbytes)
    rwa [wordOfBytes_bytesOfWord] at hload
  · subst hpc
    rw [fetch_of_bytesAt hlen ha hbytes, wordOfBytes_bytesOfWord]

/-! ### Stores that are refused -/

/-- Bytes that may be stored to do not decide whether a store is refused. -/
theorem storeRefusalOn_skip {p : Platform} {a : Word} {k m : Nat}
    (h : ∀ j < k, p.region (a + BitVec.ofNat 32 j) = .ram ∨ p.region (a + BitVec.ofNat 32 j) = .device) :
    storeRefusalOn p a (k + m) = storeRefusalOn p (a + BitVec.ofNat 32 k) m := by
  induction k generalizing a with
  | zero => simp
  | succ k ih =>
    have h0 : p.region a = .ram ∨ p.region a = .device := by simpa using h 0 (by omega)
    have hrest : storeRefusalOn p (a + 1) (k + m) = storeRefusalOn p (a + 1 + BitVec.ofNat 32 k) m :=
      ih fun j hj => by
        rw [add_one_add]
        exact h (j + 1) (by omega)
    rw [Nat.succ_add, storeRefusalOn, ← add_one_add, ← hrest]
    rcases h0 with h0 | h0 <;> rw [h0]

/-- A store is refused at its first byte that is neither ram nor a device's, for what that byte is (R69). -/
theorem memWriteOn_refused {p : Platform} {s : State} {a : Word} {n k : Nat} {v : Word} (hk : k < n)
    (h : ∀ j < k, p.region (a + BitVec.ofNat 32 j) = .ram ∨ p.region (a + BitVec.ofNat 32 j) = .device) :
    (p.region (a + BitVec.ofNat 32 k) = .rom →
      memWriteOn p s a n v = .refused (.storeToRom (a + BitVec.ofNat 32 k))) ∧
    (p.region (a + BitVec.ofNat 32 k) = .vacant →
      memWriteOn p s a n v = .refused (.vacantAddress (a + BitVec.ofNat 32 k))) := by
  obtain ⟨m, rfl⟩ : ∃ m, n = k + (m + 1) := ⟨n - k - 1, by omega⟩
  rw [memWriteOn, storeRefusalOn_skip h, storeRefusalOn]
  constructor <;> intro hr <;> rw [hr]

/-- A store instruction is refused at the first rom byte after ram. -/
theorem storeV_rom {rs1 : XReg} {imm : BitVec 12} {n k : Nat} {v : Word} {s : State} (hk : k < n)
    (hrom : regionOf (s.ea rs1 imm + BitVec.ofNat 32 k) = .rom) (hram : AllRam (s.ea rs1 imm) k) :
    storeV rs1 imm n v s = .refused (.storeToRom (s.ea rs1 imm + BitVec.ofNat 32 k)) := by
  rw [storeV, memWrite, (memWriteOn_refused hk fun j hj => .inl (hram j hj)).1 hrom, andThen]

/-- Settles O23: MemWrite refuses at the first byte of the rom, whichever store makes it. -/
theorem storeToRomRefused : Obligations.StoreToRomRefused := by
  rintro s rs2 rs1 imm k a rfl hrom hram
  exact ⟨fun hk => storeV_rom hk hrom hram, fun hk => storeV_rom hk hrom hram,
    fun hk => ⟨storeV_rom hk hrom hram, storeV_rom hk hrom hram⟩⟩

end Sys2Proof.Machine
end

section
/-! The step that executes an instruction (spec/20_memory.md R67, spec/44_machine_mode.md R272). -/

namespace Sys2Proof.Machine

/-- The end of a step, as the changes it makes (R34, R38, R272). -/
theorem finishInstr_eq (t : State) : finishInstr t = { t with
    instret := if t.waiting then t.instret else t.instret + 1
    cycle := if t.waiting then t.cycle else t.cycle + 1 + BitVec.ofNat 64 (Config.cycleExtra t.draws)
    time := t.time + BitVec.ofNat 64 (Config.timeAdvance t.draws)
    irqs := t.irqs.tail
    draws := t.draws + 1 } := by
  by_cases hw : t.waiting = true
  · simp [finishInstr_of_waiting hw, elapse, hw]
  · rw [Bool.not_eq_true] at hw
    simp [finishInstr_of_not_waiting hw, elapse, retire, hw]

/-- A step from a state that is due to fetch executes the instruction of the bytes at its program counter. -/
theorem executes_of_bytesAt {s : State} {bs : List Byte} {i : Instr} (hw : s.waiting = false)
    (hr : s.interruptReady = false) (ha : Aligned s.pc) (hlen : bs.length = 4) (hbytes : BytesAt s s.pc bs)
    (hd : decode (wordOfBytes bs) = .ok i) : Executes s i :=
  ⟨hw, hr, wordOfBytes bs, fetch_of_bytesAt hlen ha hbytes, hd⟩

/-- Settles O7: the step executes the decoded instruction and ends. -/
theorem stepRunsDecoded : Obligations.StepRunsDecoded := by
  intro s bs i hw hr ha hlen hbytes hd
  have hword : decode (wordOfBytes bs) = .ok i := by
    rwa [decodeBytes, if_neg (by omega), List.take_of_length_le (by omega)] at hd
  rw [step_of_executes (executes_of_bytesAt hw hr ha hlen hbytes hword), funext finishInstr_eq]

/-! ### Placing an instruction (log 36) -/

/-- Placing leaves no interrupt due. -/
theorem State.withFetchWord_interruptReady (s : State) (nbits w : Nat) :
    (s.withFetchWord nbits w).interruptReady = false := by
  by_cases hr : s.interruptReady = true
  · have hirq : (s.withFetchWord nbits w).irq = false := by
      rw [State.irq, show (s.withFetchWord nbits w).irqs = _ from if_pos hr, List.headD_cons]
    rw [State.interruptReady, hirq, Bool.and_false]
  · have hirq : (s.withFetchWord nbits w).irq = s.irq := by
      rw [State.irq, show (s.withFetchWord nbits w).irqs = _ from if_neg hr, State.irq]
    rw [State.interruptReady, hirq]
    exact Bool.not_eq_true _ ▸ hr

/-- The placed bytes can be read at the program counter, wherever it points: ram and rom alike hold what is loaded. -/
theorem State.withFetchWord_bytesAt (s : State) (w : Word) :
    BytesAt (s.withFetchWord 32 w.toNat) s.pc (bytesOfWord 4 w) := by
  have hmem : (s.withFetchWord 32 w.toNat).mem = s.mem.writeBytes s.pc (bytesOfWord 4 w) := by
    rw [State.withFetchWord, Nat.mod_eq_of_lt w.isLt, BitVec.ofNat_toNat, BitVec.setWidth_eq]
  intro k hk
  rw [hmem]
  exact ⟨regionOf_cases _, Memory.read_writeBytes_self _ _ _ (by rw [bytesOfWord_length]; omega) k hk⟩

/-- Settles O8: the placed word is fetched, and decodes to the instruction. -/
theorem placedInstructionIsExecuted : Obligations.PlacedInstructionIsExecuted := by
  intro s i hi ha
  have hd : decode (wordOfBytes (bytesOfWord 4 (encode i))) = .ok i := by
    rw [wordOfBytes_bytesOfWord, decode_encode hi]
  exact step_of_executes (executes_of_bytesAt rfl (s.withFetchWord_interruptReady _ _) ha (bytesOfWord_length 4 _)
    (s.withFetchWord_bytesAt (encode i)) hd)

end Sys2Proof.Machine
end

section
/-! Accesses under any memory map (spec/20_memory.md R64, R68 to R70; log 37, log 42): what the devices see of an access,
what a read answers, what a store leaves. -/

namespace Sys2Proof.Machine

/-! ### What the devices see -/

/-- An access has a first bus cycle. -/
theorem firstCycle_pos (a : Word) {n : Nat} (hn : 0 < n) : 0 < firstCycle a n :=
  Nat.sub_pos_of_lt (Nat.mod_lt _ hn)

/-- Where an access is cut (log 42). -/
theorem firstCycle_eq_ite (a : Word) (n : Nat) :
    firstCycle a n = if a.toNat % n = 0 then n else n - a.toNat % n := by
  split
  · exact firstCycle_aligned ‹_›
  · rfl

theorem Platform.reachesDevice_iff {p : Platform} {a : Word} {n : Nat} :
    p.reachesDevice a n = true ↔ ∃ k < n, p.region (a + BitVec.ofNat 32 k) = .device := by
  rw [← not_iff_not, Bool.not_eq_true, Platform.reachesDevice_eq_false]
  push Not
  rfl

/-- What is recorded of a bus cycle over the `n` bytes from `a`: the cycle, where it reaches a device. -/
def Platform.recordOf (p : Platform) (acc : DeviceAccess) (a : Word) (n : Nat) : List DeviceAccess :=
  if p.reachesDevice a n then [acc] else []

theorem State.seenBy_eq (p : Platform) (acc : DeviceAccess) (a : Word) (n : Nat) (s : State) :
    s.seenBy p acc a n = { s with devices := p.recordOf acc a n ++ s.devices } := by
  unfold State.seenBy Platform.recordOf
  split <;> rfl

theorem Platform.recordOf_eq_ite {p : Platform} {acc : DeviceAccess} {a : Word} {n : Nat} {c : Prop} [Decidable c]
    (h : (∃ k < n, p.region (a + BitVec.ofNat 32 k) = .device) ↔ c) : p.recordOf acc a n = if c then [acc] else [] :=
  if_congr (Platform.reachesDevice_iff.trans h) rfl rfl

/-- A cycle over device bytes is recorded if it carries any. -/
theorem Platform.recordOf_of_device {p : Platform} {acc : DeviceAccess} {a : Word} {n : Nat}
    (h : ∀ k < n, p.region (a + BitVec.ofNat 32 k) = .device) : p.recordOf acc a n = if 0 < n then [acc] else [] :=
  Platform.recordOf_eq_ite ⟨fun ⟨_, hk, _⟩ => by omega, fun hn => ⟨0, hn, h 0 hn⟩⟩

/-- What has been seen after a read: its first bus cycle, then the second. -/
theorem State.afterReadOn_eq (p : Platform) (s : State) (a : Word) (n : Nat) :
    s.afterReadOn p a n = { s with
      devices :=
        p.recordOf (.read (a + BitVec.ofNat 32 (firstCycle a n)) (n - firstCycle a n))
          (a + BitVec.ofNat 32 (firstCycle a n)) (n - firstCycle a n) ++
        (p.recordOf (.read a (firstCycle a n)) a (firstCycle a n) ++ s.devices) } := by
  rw [State.afterReadOn, State.afterCycleOn, State.afterCycleOn, State.seenBy_eq, State.seenBy_eq]

/-! ### Reads -/

/-- A read of memory bytes answers them and has no effect (R63, R70). -/
theorem memReadOn_of_memory {p : Platform} {s : State} {a : Word} {bs : List Byte}
    (h : ∀ k (hk : k < bs.length),
      (p.region (a + BitVec.ofNat 32 k) = .ram ∨ p.region (a + BitVec.ofNat 32 k) = .rom) ∧
        s.mem.read (a + BitVec.ofNat 32 k).toNat = some bs[k]) :
    memReadOn p s a bs.length = .next (wordOfBytes bs) ∧ s.afterReadOn p a bs.length = s := by
  have hdev : ∀ k < bs.length, p.region (a + BitVec.ofNat 32 k) ≠ .device := by
    intro k hk hd
    rcases (h k hk).1 with hr | hr <;> simp [hr] at hd
  have hread : readBytesOn p s a bs.length = .next bs :=
    readBytesOn_eq_next.2 ⟨rfl, fun k hk => readByteOn_eq_next.2 (.inl (h k hk))⟩
  exact ⟨by rw [memReadOn_eq_readBytesOn hdev, hread, andThen_next], State.afterReadOn_eq_self hdev⟩

theorem readByteOn_of_device {p : Platform} {s : State} {a : Word} (h : p.region a = .device) :
    readByteOn p s a = .next (Config.deviceByte s.devices s.draws a) := by rw [readByteOn, h]

theorem readByteOn_of_vacant {p : Platform} {s : State} {a : Word} (h : p.region a = .vacant) :
    readByteOn p s a = .refused (.vacantAddress a) := by rw [readByteOn, h]

/-- What the devices have seen after an access to device bytes alone. -/
theorem State.afterReadOn_of_device {p : Platform} {s : State} {a : Word} {n : Nat} (hn : 0 < n)
    (h : ∀ k < n, p.region (a + BitVec.ofNat 32 k) = .device) :
    s.afterReadOn p a n = { s with
      devices :=
        (if firstCycle a n < n then [.read (a + BitVec.ofNat 32 (firstCycle a n)) (n - firstCycle a n)] else []) ++
          .read a (firstCycle a n) :: s.devices } := by
  have hfirst : ∀ k < firstCycle a n, p.region (a + BitVec.ofNat 32 k) = .device :=
    fun k hk => h k (Nat.lt_of_lt_of_le hk (firstCycle_le a n))
  rw [State.afterReadOn_eq, Platform.recordOf_of_device hfirst, if_pos (firstCycle_pos a hn),
    Platform.recordOf_of_device (secondCycle_forall (P := fun c => p.region c = .device) h), List.singleton_append]
  simp only [Nat.sub_pos_iff_lt]

/-- The bytes that devices answer to a read of `n` bytes: to one of the first bus cycle knowing that cycle, to one of the
second knowing both. -/
def deviceBytes (p : Platform) (s : State) (a : Word) (n : Nat) : List Byte :=
  (List.range n).map fun k => Config.deviceByte
    (if k < firstCycle a n then .read a (firstCycle a n) :: s.devices else (s.afterReadOn p a n).devices) s.draws
    (a + BitVec.ofNat 32 k)

/-- A read of device bytes is answered by the devices (R69, log 37). -/
theorem memReadOn_of_device {p : Platform} {s : State} {a : Word} {n : Nat} (hn : 0 < n)
    (h : ∀ k < n, p.region (a + BitVec.ofNat 32 k) = .device) :
    memReadOn p s a n = .next (wordOfBytes (deviceBytes p s a n)) := by
  have hle := firstCycle_le a n
  have hlen : (deviceBytes p s a n).length = n := by simp [deviceBytes]
  have hseen : (s.afterCycleOn p a (firstCycle a n)).devices = .read a (firstCycle a n) :: s.devices := by
    rw [State.afterCycleOn, State.seenBy_eq, Platform.recordOf_of_device fun k hk => h k (by omega),
      if_pos (firstCycle_pos a hn), List.singleton_append]
  refine memReadOn_eq_next.2 ⟨(deviceBytes p s a n).take (firstCycle a n), (deviceBytes p s a n).drop (firstCycle a n),
    ⟨by rw [List.length_take]; omega, fun k hk => ?_⟩, ⟨by rw [List.length_drop]; omega, fun k hk => ?_⟩,
    by rw [List.take_append_drop]⟩
  · rw [List.length_take] at hk
    rw [readByteOn_of_device (h k (by omega)), hseen, State.afterCycleOn_draws]
    simp [deviceBytes, show k < firstCycle a n by omega]
  · rw [List.length_drop] at hk
    rw [add_ofNat_add, readByteOn_of_device (h _ (by omega))]
    simp [deviceBytes, State.afterReadOn]

/-- The bytes that can be read (R69): whether one can does not depend on what the devices have seen. -/
theorem exists_readByteOn_iff {p : Platform} {s : State} {a : Word} : (∃ b, readByteOn p s a = .next b) ↔
    p.region a = .device ∨ ((p.region a = .ram ∨ p.region a = .rom) ∧ s.mem.read a.toNat ≠ none) := by
  simp only [readByteOn_eq_next, exists_or, exists_and_left, exists_eq, and_true, Option.ne_none_iff_exists']
  exact or_comm

/-- Bytes that can each be read can be read together. -/
theorem exists_readBytesOn {p : Platform} {s : State} {a : Word} {n : Nat}
    (h : ∀ k < n, ∃ b, readByteOn p s (a + BitVec.ofNat 32 k) = .next b) : ∃ bs, readBytesOn p s a n = .next bs := by
  choose! b hb using h
  exact ⟨(List.range n).map b, readBytesOn_eq_next.2 ⟨by simp, fun k hk => by simpa using hb k (by simpa using hk)⟩⟩

/-- A read of bytes ends with the first of them that is refused. -/
theorem readBytesOn_refused {p : Platform} {s : State} {a : Word} {n k : Nat} {r : Refusal} (hk : k < n)
    (hread : ∀ j < k, ∃ b, readByteOn p s (a + BitVec.ofNat 32 j) = .next b)
    (hr : readByteOn p s (a + BitVec.ofNat 32 k) = .refused r) : readBytesOn p s a n = .refused r := by
  obtain ⟨m, rfl⟩ : ∃ m, n = k + (m + 1) := ⟨n - k - 1, by omega⟩
  obtain ⟨bs, hbs⟩ := exists_readBytesOn hread
  rw [readBytesOn_append, hbs, andThen_next, readBytesOn, hr]
  rfl

/-- MemRead is refused at its first vacant byte, where the bytes before it can be read (R69). -/
theorem memReadOn_of_vacant {p : Platform} {s : State} {a : Word} {n k : Nat} (hk : k < n)
    (hv : p.region (a + BitVec.ofNat 32 k) = .vacant)
    (hread : ∀ j < k, ∃ b, readByteOn p s (a + BitVec.ofNat 32 j) = .next b) :
    memReadOn p s a n = .refused (.vacantAddress (a + BitVec.ofNat 32 k)) := by
  have hread' {u : State} (hu : u.mem = s.mem) :
      ∀ j < k, ∃ b, readByteOn p u (a + BitVec.ofNat 32 j) = .next b := by
    intro j hj
    rw [exists_readByteOn_iff, hu, ← exists_readByteOn_iff]
    exact hread j hj
  rw [memReadOn, readCycleOn, readCycleOn]
  by_cases hf : k < firstCycle a n
  · rw [readBytesOn_refused hf (hread' (by simp)) (readByteOn_of_vacant hv)]
    rfl
  · obtain ⟨m, rfl⟩ : ∃ m, k = firstCycle a n + m := ⟨k - firstCycle a n, by omega⟩
    obtain ⟨bs, hbs⟩ := exists_readBytesOn (p := p) (s := s.afterCycleOn p a (firstCycle a n)) (a := a)
      (n := firstCycle a n) fun j hj => hread' (by simp) j (by omega)
    rw [← add_ofNat_add] at hv
    rw [hbs, andThen_next, readBytesOn_refused (k := m) (by omega) (fun j hj => ?_) (readByteOn_of_vacant hv),
      add_ofNat_add]
    · rfl
    · rw [add_ofNat_add]
      exact hread' (by simp) _ (by omega)

/-! ### Stores -/

/-- What a store of bytes does to memory and to the record of stored addresses does not depend on what the devices have
seen. -/
theorem storeBytesOn_setDevices (p : Platform) (a : Word) (bs : List Byte) (s : State) (d : List DeviceAccess) :
    storeBytesOn p a bs { s with devices := d } = { storeBytesOn p a bs s with devices := d } := by
  induction bs generalizing a s with
  | nil => rfl
  | cons b bs ih => exact ih (a + 1) (storeByteOn p a b s)

theorem writeCycleOn_eq (p : Platform) (a : Word) (bs : List Byte) (s : State) :
    writeCycleOn p a bs s =
      { storeBytesOn p a bs s with devices := p.recordOf (.write a bs) a bs.length ++ s.devices } := by
  rw [writeCycleOn, State.seenBy_eq, storeBytesOn_setDevices]

/-- A store stores its bytes as if by one bus cycle; the devices see its cycles (R64, R68). -/
theorem State.afterWriteOn_eq (p : Platform) (s : State) (a : Word) (bs : List Byte) :
    s.afterWriteOn p a bs = { storeBytesOn p a bs s with
      devices :=
        p.recordOf (.write (a + BitVec.ofNat 32 (firstCycle a bs.length)) (bs.drop (firstCycle a bs.length)))
          (a + BitVec.ofNat 32 (firstCycle a bs.length)) (bs.length - firstCycle a bs.length) ++
        p.recordOf (.write a (bs.take (firstCycle a bs.length))) a (firstCycle a bs.length) ++ s.devices } := by
  have hle := firstCycle_le a bs.length
  have hwhole := storeBytesOn_append p a (bs.take (firstCycle a bs.length)) (bs.drop (firstCycle a bs.length)) s
  rw [List.take_append_drop, List.length_take, Nat.min_eq_left hle] at hwhole
  rw [State.afterWriteOn, writeCycleOn_eq, writeCycleOn_eq, storeBytesOn_setDevices, ← hwhole, List.length_drop,
    List.length_take, Nat.min_eq_left hle, List.append_assoc]

theorem storeByteOn_mem (p : Platform) (a : Word) (b : Byte) (s : State) :
    (storeByteOn p a b s).mem = if p.region a = .device then s.mem else s.mem.write a.toNat b := rfl

theorem storeByteOn_stored (p : Platform) (a : Word) (b : Byte) (s : State) : (storeByteOn p a b s).stored =
    if p.ifetchCoherent || s.stored.contains a then s.stored else a :: s.stored := rfl

/-- Every byte that is not stored to, or is a device's, reads as before. -/
theorem read_storeBytesOn_other (p : Platform) {c : Word} (bs : List Byte) (a : Word) (s : State)
    (h : ∀ k < bs.length, c = a + BitVec.ofNat 32 k → p.region c = .device) :
    (storeBytesOn p a bs s).mem.read c.toNat = s.mem.read c.toNat := by
  induction bs generalizing a s with
  | nil => rfl
  | cons b bs ih =>
    have h0 : c = a → p.region c = .device := by simpa using h 0 (by simp)
    have hrest : ∀ k < bs.length, c = a + 1 + BitVec.ofNat 32 k → p.region c = .device := by
      intro k hk
      rw [add_one_add]
      exact h (k + 1) (by simpa using hk)
    rw [storeBytesOn, ih _ _ hrest, storeByteOn_mem]
    split
    · rfl
    · rename_i hd
      rw [Memory.read_write, if_neg]
      intro e
      obtain rfl := BitVec.eq_of_toNat_eq e
      exact hd (h0 rfl)

/-- A byte stored to that is not a device's reads as stored. -/
theorem read_storeBytesOn_self (p : Platform) (bs : List Byte) (a : Word) (s : State) (hl : bs.length ≤ 2 ^ 32)
    (k : Nat) (hk : k < bs.length) (hd : p.region (a + BitVec.ofNat 32 k) ≠ .device) :
    (storeBytesOn p a bs s).mem.read (a + BitVec.ofNat 32 k).toNat = some bs[k] := by
  induction bs generalizing a s k with
  | nil => simp at hk
  | cons b bs ih =>
    rw [List.length_cons] at hl hk
    cases k with
    | zero =>
      have hfar : ∀ j < bs.length, a = a + 1 + BitVec.ofNat 32 j → p.region a = .device := by
        intro j hj e
        have := congrArg BitVec.toNat e
        rw [add_one_add] at this
        simp only [BitVec.toNat_add, BitVec.toNat_ofNat] at this
        omega
      have hd0 : p.region a ≠ .device := by simpa using hd
      rw [show a + BitVec.ofNat 32 0 = a by simp, storeBytesOn, read_storeBytesOn_other p _ _ _ hfar, storeByteOn_mem,
        if_neg hd0, Memory.read_write, if_pos rfl, List.getElem_cons_zero]
    | succ k =>
      rw [← add_one_add] at hd ⊢
      exact ih _ _ (by omega) k (by omega) hd

/-- A store to device bytes alone leaves memory as it is. -/
theorem storeBytesOn_mem_of_device (p : Platform) (bs : List Byte) (a : Word) (s : State)
    (h : ∀ k < bs.length, p.region (a + BitVec.ofNat 32 k) = .device) : (storeBytesOn p a bs s).mem = s.mem := by
  induction bs generalizing a s with
  | nil => rfl
  | cons b bs ih =>
    have h0 : p.region a = .device := by simpa using h 0 (by simp)
    rw [storeBytesOn, ih, storeByteOn_mem, if_pos h0]
    intro k hk
    rw [add_one_add]
    exact h (k + 1) (by simpa using hk)

/-- Where fetches are coherent no address is recorded (R76). -/
theorem storeBytesOn_stored_of_coherent {p : Platform} (hc : p.ifetchCoherent = true) (bs : List Byte) (a : Word)
    (s : State) : (storeBytesOn p a bs s).stored = s.stored := by
  induction bs generalizing a s with
  | nil => rfl
  | cons b bs ih => rw [storeBytesOn, ih, storeByteOn_stored, hc, Bool.true_or, if_pos rfl]

/-- Where they are not, the addresses of all the bytes are. -/
theorem mem_storeBytesOn_stored {p : Platform} (hc : p.ifetchCoherent = false) {c : Word} (bs : List Byte) (a : Word)
    (s : State) : c ∈ (storeBytesOn p a bs s).stored ↔
      c ∈ s.stored ∨ ∃ k < bs.length, c = a + BitVec.ofNat 32 k := by
  induction bs generalizing a s with
  | nil => simp [storeBytesOn]
  | cons b bs ih =>
    have hbyte : c ∈ (storeByteOn p a b s).stored ↔ c ∈ s.stored ∨ c = a := by
      rw [storeByteOn_stored, hc, Bool.false_or]
      split
      · rename_i ha
        rw [List.contains_iff_mem] at ha
        exact ⟨.inl, fun h => h.elim id fun e => e ▸ ha⟩
      · rw [List.mem_cons, or_comm]
    have hzero : a + BitVec.ofNat 32 0 = a := by simp
    rw [storeBytesOn, ih, hbyte, List.length_cons, Nat.exists_lt_succ_left, or_assoc, hzero]
    simp only [add_one_add]

/-- The device bytes of the second bus cycle, as bytes of the access. -/
theorem exists_secondCycle_iff {P : Word → Prop} {a : Word} {n f : Nat} :
    (∃ k < n - f, P (a + BitVec.ofNat 32 f + BitVec.ofNat 32 k)) ↔ ∃ k < n, f ≤ k ∧ P (a + BitVec.ofNat 32 k) := by
  simp only [add_ofNat_add]
  constructor
  · rintro ⟨k, hk, hP⟩
    exact ⟨f + k, by omega, by omega, hP⟩
  · rintro ⟨k, hk, hf, hP⟩
    exact ⟨k - f, by omega, by rwa [Nat.add_sub_cancel' hf]⟩

/-- All that a store which is not refused does to the state. -/
theorem State.afterWriteOn_frame_devices (p : Platform) (s : State) (a : Word) (bs : List Byte)
    [Decidable (∃ k < bs.length, firstCycle a bs.length ≤ k ∧ p.region (a + BitVec.ofNat 32 k) = .device)]
    [Decidable (∃ k < firstCycle a bs.length, p.region (a + BitVec.ofNat 32 k) = .device)] :
    s.afterWriteOn p a bs = { s with
      mem := (storeBytesOn p a bs s).mem
      stored := (storeBytesOn p a bs s).stored
      devices :=
        (if ∃ k < bs.length, firstCycle a bs.length ≤ k ∧ p.region (a + BitVec.ofNat 32 k) = .device
          then [.write (a + BitVec.ofNat 32 (firstCycle a bs.length)) (bs.drop (firstCycle a bs.length))] else []) ++
        (if ∃ k < firstCycle a bs.length, p.region (a + BitVec.ofNat 32 k) = .device
          then [.write a (bs.take (firstCycle a bs.length))] else []) ++
        s.devices } := by
  obtain ⟨m, st, h⟩ := storeBytesOn_frame p a bs s
  rw [State.afterWriteOn_eq, h, Platform.recordOf_eq_ite (exists_secondCycle_iff (P := fun c => p.region c = .device)),
    Platform.recordOf_eq_ite Iff.rfl]

/-! ### Fetches (R67, R76) -/

theorem fetchAligned_iff {a : Word} : fetchAligned a = true ↔ Aligned a := by
  simp [fetchAligned, branchMisaligned, Aligned]

theorem State.storedByte_eq_none {s : State} {a : Word} {n : Nat} :
    s.storedByte a n = none ↔ ∀ k < n, a + BitVec.ofNat 32 k ∉ s.stored := by
  induction n generalizing a with
  | zero => simp [State.storedByte]
  | succ n ih =>
    have hzero : a + BitVec.ofNat 32 0 = a := by simp
    rw [State.storedByte, Nat.forall_lt_succ_left, hzero]
    simp only [← add_one_add, ← ih, List.contains_iff_mem]
    split <;> simp [*]

/-- The byte found is the first that the hart has stored to. -/
theorem State.storedByte_eq_some {s : State} {a : Word} {n k : Nat} (hk : k < n)
    (hmem : a + BitVec.ofNat 32 k ∈ s.stored) (hfirst : ∀ j < k, a + BitVec.ofNat 32 j ∉ s.stored) :
    s.storedByte a n = some (a + BitVec.ofNat 32 k) := by
  induction n generalizing a k with
  | zero => omega
  | succ n ih =>
    rw [State.storedByte]
    cases k with
    | zero =>
      have hzero : a + BitVec.ofNat 32 0 = a := by simp
      rw [hzero] at hmem ⊢
      rw [if_pos (List.contains_iff_mem.2 hmem)]
    | succ k =>
      have h0 : a ∉ s.stored := by simpa using hfirst 0 (by omega)
      rw [if_neg (mt List.contains_iff_mem.1 h0), ← add_one_add]
      refine ih (by omega) (by rwa [add_one_add]) fun j hj => ?_
      rw [add_one_add]
      exact hfirst (j + 1) (by omega)

/-- A fetch is a read of the current memory where fetches are coherent, or the hart has stored to none of the bytes. -/
theorem fetchOn_eq_memReadOn {p : Platform} {s : State} (ha : Aligned s.pc)
    (h : p.ifetchCoherent = true ∨ s.storedByte s.pc 4 = none) : fetchOn p s = memReadOn p s s.pc 4 := by
  rw [fetchOn, if_pos (fetchAligned_iff.2 ha)]
  rcases h with h | h <;> simp [h]

theorem fetchOn_refused {p : Platform} {s : State} {b : Word} (ha : Aligned s.pc) (hc : p.ifetchCoherent = false)
    (h : s.storedByte s.pc 4 = some b) : fetchOn p s = .refused (.fetchOfStoredByte b) := by
  rw [fetchOn, if_pos (fetchAligned_iff.2 ha)]
  simp [hc, h]

/-! ### The parameters of memory -/

/-- What a store to ram and device bytes leaves, on every platform. -/
theorem memWriteOn_stores {p : Platform} {s : State} {a : Word} {n : Nat} (hn : n ≤ 2 ^ 32) (v : Word)
    (h : ∀ k < n, p.region (a + BitVec.ofNat 32 k) = .ram ∨ p.region (a + BitVec.ofNat 32 k) = .device) :
    ∃ t, memWriteOn p s a n v = .next t ∧ t = s.afterWriteOn p a (bytesOfWord n v) ∧
      (∀ k < n, p.region (a + BitVec.ofNat 32 k) = .ram →
        t.mem.read (a + BitVec.ofNat 32 k).toNat = some (v.extractLsb' (8 * k) 8)) ∧
      (∀ c : Word, (∀ k < n, c = a + BitVec.ofNat 32 k → p.region c = .device) →
        t.mem.read c.toNat = s.mem.read c.toNat) ∧
      ((∀ k < n, p.region (a + BitVec.ofNat 32 k) = .device) → t.mem = s.mem) ∧
      (p.ifetchCoherent = true → t.stored = s.stored) ∧
      (p.ifetchCoherent = false → ∀ c, c ∈ t.stored ↔ c ∈ s.stored ∨ ∃ k < n, c = a + BitVec.ofNat 32 k) := by
  have hlen : (bytesOfWord n v).length = n := bytesOfWord_length n v
  refine ⟨_, memWriteOn_eq_next.2 ⟨h, rfl⟩, rfl, ?_⟩
  rw [State.afterWriteOn_eq]
  refine ⟨fun k hk hr => ?_, fun c hc => ?_, fun hd => ?_, fun hc => ?_, fun hc c => ?_⟩
  · rw [← bytesOfWord_getElem n v k (by omega)]
    exact read_storeBytesOn_self p _ a s (by omega) k (by omega) (by simp [hr])
  · exact read_storeBytesOn_other p _ a s fun k hk => hc k (by omega)
  · exact storeBytesOn_mem_of_device p _ a s fun k hk => hd k (by omega)
  · exact storeBytesOn_stored_of_coherent hc _ a s
  · rw [mem_storeBytesOn_stored hc, hlen]

/-- Settles O60: reads and stores by the classes of their bytes, then fetches. -/
theorem memoryParameters : Obligations.MemoryParameters := by
  refine ⟨fun p s a n f hn hf => ?_, fun p s ha => ?_⟩
  · have hpos : 0 < n := by omega
    have hle : n ≤ 2 ^ 32 := by omega
    rw [← firstCycle_eq_ite] at hf
    subst hf
    refine ⟨?_, ?_, ?_, fun v k hk h => memWriteOn_refused hk h, ?_⟩
    · rintro bs rfl h
      exact memReadOn_of_memory h
    · rintro d h rfl
      have hafter := State.afterReadOn_of_device (s := s) hpos h
      exact ⟨⟨deviceBytes p s a n, by simp [deviceBytes], memReadOn_of_device hpos h,
        fun k hk => by simp [deviceBytes, hafter]⟩, hafter⟩
    · exact fun k hk hv hread => memReadOn_of_vacant hk hv fun j hj => exists_readByteOn_iff.2 (hread j hj)
    · rintro v bs hbs h
      rw [← bytesOfWord_eq_map] at hbs
      subst hbs
      obtain ⟨t, ht, rfl, hram, hother, hdev, hcoh, hrec⟩ := memWriteOn_stores (s := s) hle v h
      refine ⟨_, ht, hram, hother, hdev, ?_, hcoh, hrec⟩
      have hframe := State.afterWriteOn_frame_devices p s a (bytesOfWord n v)
      simp only [bytesOfWord_length] at hframe
      rw [hframe]
  · exact ⟨fun hc => fetchOn_eq_memReadOn ha (.inl hc),
      fun _ h => fetchOn_eq_memReadOn ha (.inr (State.storedByte_eq_none.2 h)),
      fun hc k hk hmem hfirst => fetchOn_refused ha hc (State.storedByte_eq_some hk hmem hfirst)⟩

end Sys2Proof.Machine
end

section
/-! The opcode table and the decoder of its 73 rows (spec/30_encoding.md R91, R112, R113, R115): a word that matches a row
is led to the row's instruction, and a word that decodes matches a row. -/

namespace Sys2Proof

/-! ### From the table to the decoder -/

/-- A word holds a row's bits in every field that the row's mask covers. -/
theorem field_of_matches {r : TableRow} {w : Word} (h : r.matches w = true) {s l : Nat}
    (hm : r.mask.extractLsb' s l = BitVec.allOnes l) : w.extractLsb' s l = r.pattern.extractLsb' s l := by
  have hw : w &&& r.mask = r.pattern := beq_iff_eq.1 h
  rw [← hw, BitVec.extractLsb'_and, hm, BitVec.and_allOnes]

/-- The name of the instruction that the decoder of the 73 rows answers. -/
def mnemonicOf (w : Word) : Option String :=
  match decodeBase w with
  | .ok i => some i.mnemonic
  | .error _ => none

theorem mnemonicOf_eq_some {w : Word} {m : String} :
    mnemonicOf w = some m ↔ ∃ i, decodeBase w = .ok i ∧ i.mnemonic = m := by
  cases h : decodeBase w <;> simp [mnemonicOf, h]

/-- Row by row: the fields that a row fixes are the ones the decoder tests on its way to the row's instruction. -/
theorem mnemonicOf_of_matches {r : TableRow} (hr : r ∈ tableRows) {w : Word} (h : r.matches w = true) :
    mnemonicOf w = some r.mnemonic := by
  have hfield {s l : Nat} := field_of_matches h (s := s) (l := l)
  clear h
  fin_cases hr
  all_goals
    simp (disch := decide) [mnemonicOf, decodeBase, decodeBranch, decodeLoad, decodeStore, decodeOpImm, decodeOp,
      decodeFloat, decodeFloatRm, decodeFloatSel, decodeFence, decodeSystem, fpFunct7, sraiFunct7, fsgnjFunct5,
      fcvtSFunct5, wfiCode, rdFunct3, encodingVariant, opcodeOf, funct3Of, funct7Of, funct12Of, rdOf, rs1Of, rs2Of,
      hfield]
    rfl

/-! ### From the decoder to the table -/

/-- The positions of the `l` bits from bit `s`. -/
def fieldMask (s l : Nat) : Word := (BitVec.allOnes l).setWidth 32 <<< s

/-- Two words hold the same bits under a mask. -/
def Agree (m w p : Word) : Prop := w &&& m = p &&& m

theorem agree_field {w p : Word} {s l : Nat} (h : w.extractLsb' s l = p.extractLsb' s l) :
    Agree (fieldMask s l) w p := by
  apply BitVec.eq_of_getLsbD_eq
  intro i hi
  have hbit := congrArg (BitVec.getLsbD · (i - s)) h
  simp only [BitVec.getLsbD_extractLsb'] at hbit
  simp only [fieldMask, BitVec.getLsbD_and, BitVec.getLsbD_shiftLeft, BitVec.getLsbD_setWidth, BitVec.getLsbD_allOnes]
  grind

theorem agree_or {a b w p : Word} (ha : Agree a w p) (hb : Agree b w p) : Agree (a ||| b) w p := by
  unfold Agree at *
  rw [BitVec.and_or_distrib_left, BitVec.and_or_distrib_left, ha, hb]

/-- A row of the table matches the word. -/
def Listed (w : Word) : Prop := ∃ r ∈ tableRows, r.matches w = true

theorem listed_of_agree {w : Word} (m : Word) {r : TableRow} (hr : r ∈ tableRows) (hm : r.mask = m)
    (h : Agree m w r.pattern) : Listed w := by
  have hpattern : ∀ r ∈ tableRows, r.pattern &&& r.mask = r.pattern := by decide
  subst hm
  exact ⟨r, hr, beq_iff_eq.2 (h.trans (hpattern r hr))⟩

/-! One lemma per mask of the table: the fields that a row with this mask fixes. -/

section
variable {w : Word}

theorem listed_of_opcode (h : ∃ r ∈ tableRows, r.mask = 0x7F ∧ opcodeOf w = opcodeOf r.pattern) : Listed w := by
  obtain ⟨r, hr, hm, hop⟩ := h
  exact listed_of_agree (fieldMask 0 7) hr hm (agree_field hop)

theorem listed_of_funct3 (h : ∃ r ∈ tableRows, r.mask = 0x707F ∧ opcodeOf w = opcodeOf r.pattern ∧
    funct3Of w = funct3Of r.pattern) : Listed w := by
  obtain ⟨r, hr, hm, hop, h3⟩ := h
  exact listed_of_agree (fieldMask 0 7 ||| fieldMask 12 3) hr hm (agree_or (agree_field hop) (agree_field h3))

theorem listed_of_funct7 (h : ∃ r ∈ tableRows, r.mask = 0xFE00007F ∧ opcodeOf w = opcodeOf r.pattern ∧
    funct7Of w = funct7Of r.pattern) : Listed w := by
  obtain ⟨r, hr, hm, hop, h7⟩ := h
  exact listed_of_agree (fieldMask 0 7 ||| fieldMask 25 7) hr hm (agree_or (agree_field hop) (agree_field h7))

theorem listed_of_funct7_funct3 (h : ∃ r ∈ tableRows, r.mask = 0xFE00707F ∧ opcodeOf w = opcodeOf r.pattern ∧
    funct7Of w = funct7Of r.pattern ∧ funct3Of w = funct3Of r.pattern) : Listed w := by
  obtain ⟨r, hr, hm, hop, h7, h3⟩ := h
  exact listed_of_agree (fieldMask 0 7 ||| (fieldMask 25 7 ||| fieldMask 12 3)) hr hm
    (agree_or (agree_field hop) (agree_or (agree_field h7) (agree_field h3)))

theorem listed_of_funct7_rs2 (h : ∃ r ∈ tableRows, r.mask = 0xFFF0007F ∧ opcodeOf w = opcodeOf r.pattern ∧
    funct7Of w = funct7Of r.pattern ∧ rs2Of w = rs2Of r.pattern) : Listed w := by
  obtain ⟨r, hr, hm, hop, h7, h2⟩ := h
  exact listed_of_agree (fieldMask 0 7 ||| (fieldMask 25 7 ||| fieldMask 20 5)) hr hm
    (agree_or (agree_field hop) (agree_or (agree_field h7) (agree_field h2)))

theorem listed_of_funct7_rs2_funct3 (h : ∃ r ∈ tableRows, r.mask = 0xFFF0707F ∧ opcodeOf w = opcodeOf r.pattern ∧
    funct7Of w = funct7Of r.pattern ∧ rs2Of w = rs2Of r.pattern ∧ funct3Of w = funct3Of r.pattern) : Listed w := by
  obtain ⟨r, hr, hm, hop, h7, h2, h3⟩ := h
  exact listed_of_agree (fieldMask 0 7 ||| (fieldMask 25 7 ||| (fieldMask 20 5 ||| fieldMask 12 3))) hr hm
    (agree_or (agree_field hop) (agree_or (agree_field h7) (agree_or (agree_field h2) (agree_field h3))))

/-- FENCE, of which the sets are free (R101, log 26). -/
theorem listed_of_fence (h : ∃ r ∈ tableRows, r.mask = 0xF00FFFFF ∧ opcodeOf w = opcodeOf r.pattern ∧
    rs1Of w = rs1Of r.pattern ∧ rdOf w = rdOf r.pattern ∧ w.extractLsb' 28 4 = r.pattern.extractLsb' 28 4 ∧
    funct3Of w = funct3Of r.pattern) : Listed w := by
  obtain ⟨r, hr, hm, hop, h1, hd, hz, h3⟩ := h
  exact listed_of_agree
    (fieldMask 0 7 ||| (fieldMask 15 5 ||| (fieldMask 7 5 ||| (fieldMask 28 4 ||| fieldMask 12 3)))) hr hm
    (agree_or (agree_field hop) (agree_or (agree_field h1) (agree_or (agree_field hd)
      (agree_or (agree_field hz) (agree_field h3)))))

/-- The counter reads, whose destination is free (R102). -/
theorem listed_of_funct12 (h : ∃ r ∈ tableRows, r.mask = 0xFFFFF07F ∧ opcodeOf w = opcodeOf r.pattern ∧
    rs1Of w = rs1Of r.pattern ∧ funct3Of w = funct3Of r.pattern ∧ funct12Of w = funct12Of r.pattern) : Listed w := by
  obtain ⟨r, hr, hm, hop, h1, h3, h12⟩ := h
  exact listed_of_agree (fieldMask 0 7 ||| (fieldMask 15 5 ||| (fieldMask 12 3 ||| fieldMask 20 12))) hr hm
    (agree_or (agree_field hop) (agree_or (agree_field h1) (agree_or (agree_field h3) (agree_field h12))))

/-- The rows of one word each. -/
theorem listed_of_all (h : ∃ r ∈ tableRows, r.mask = 0xFFFFFFFF ∧ opcodeOf w = opcodeOf r.pattern ∧
    rs1Of w = rs1Of r.pattern ∧ funct3Of w = funct3Of r.pattern ∧ rdOf w = rdOf r.pattern ∧
    funct12Of w = funct12Of r.pattern) : Listed w := by
  obtain ⟨r, hr, hm, hop, h1, h3, hd, h12⟩ := h
  exact listed_of_agree
    (fieldMask 0 7 ||| (fieldMask 15 5 ||| (fieldMask 12 3 ||| (fieldMask 7 5 ||| fieldMask 20 12)))) hr hm
    (agree_or (agree_field hop) (agree_or (agree_field h1) (agree_or (agree_field h3)
      (agree_or (agree_field hd) (agree_field h12)))))

/-! One lemma per function of the decoder, along its tests. Each `decide` finds the row that holds the values tested. -/

variable {i : Instr}

theorem listed_of_decodeBranch (hop : opcodeOf w = 99) (h : decodeBranch w = .ok i) : Listed w := by
  iterate 6
    obtain ⟨h3, -⟩ | ⟨-, h⟩ := ite_eq_iff.1 h
    · exact listed_of_funct3 (by rw [hop, h3]; decide)
  cases h

theorem listed_of_decodeLoad (hop : opcodeOf w = 3) (h : decodeLoad w = .ok i) : Listed w := by
  iterate 5
    obtain ⟨h3, -⟩ | ⟨-, h⟩ := ite_eq_iff.1 h
    · exact listed_of_funct3 (by rw [hop, h3]; decide)
  cases h

theorem listed_of_decodeStore (hop : opcodeOf w = 35) (h : decodeStore w = .ok i) : Listed w := by
  iterate 3
    obtain ⟨h3, -⟩ | ⟨-, h⟩ := ite_eq_iff.1 h
    · exact listed_of_funct3 (by rw [hop, h3]; decide)
  cases h

/-- The last function code, which the decoder does not test. -/
theorem funct3_eq_seven {f : BitVec 3} (h0 : f ≠ 0) (h1 : f ≠ 1) (h2 : f ≠ 2) (h3 : f ≠ 3) (h4 : f ≠ 4) (h5 : f ≠ 5)
    (h6 : f ≠ 6) : f = 7 := by bv_omega

theorem listed_of_decodeOpImm (hop : opcodeOf w = 19) (h : decodeOpImm w = .ok i) : Listed w := by
  unfold decodeOpImm at h
  split_ifs at h with h0 h1 h7 h2 h3 h4 h5 h7 h7 h6
  · exact listed_of_funct3 (by rw [hop, h0]; decide)
  · exact listed_of_funct7_funct3 (by rw [hop, h7, h1]; decide)
  · exact listed_of_funct3 (by rw [hop, h2]; decide)
  · exact listed_of_funct3 (by rw [hop, h3]; decide)
  · exact listed_of_funct3 (by rw [hop, h4]; decide)
  · exact listed_of_funct7_funct3 (by rw [hop, h7, h5]; decide)
  · exact listed_of_funct7_funct3 (by rw [hop, h7, h5]; decide)
  · exact listed_of_funct3 (by rw [hop, h6]; decide)
  · exact listed_of_funct3 (by rw [hop, funct3_eq_seven h0 h1 h2 h3 h4 h5 h6]; decide)

theorem listed_of_decodeOp (hop : opcodeOf w = 51) (h : decodeOp w = .ok i) : Listed w := by
  unfold decodeOp at h
  split_ifs at h with h7 h0 h1 h2 h3 h4 h5 h6
  case neg => -- AND
    exact listed_of_funct7_funct3 (by rw [hop, h7, funct3_eq_seven h0 h1 h2 h3 h4 h5 h6]; decide)
  all_goals exact listed_of_funct7_funct3 (by rw [hop, ‹funct7Of w = _›, ‹funct3Of w = _›]; decide)

theorem listed_of_decodeFloatRm (hop : opcodeOf w = 83) (h : decodeFloatRm w = some i) : Listed w := by
  iterate 4
    obtain ⟨h7, -⟩ | ⟨-, h⟩ := ite_eq_iff.1 h
    · exact listed_of_funct7 (by rw [hop, h7]; decide)
  iterate 5
    obtain ⟨⟨h7, h2⟩, -⟩ | ⟨-, h⟩ := ite_eq_iff.1 h
    · exact listed_of_funct7_rs2 (by rw [hop, h7, h2]; decide)
  cases h

theorem listed_of_decodeFloatSel (hop : opcodeOf w = 83) (h : decodeFloatSel w = some i) : Listed w := by
  iterate 8
    obtain ⟨⟨h7, h3⟩, -⟩ | ⟨-, h⟩ := ite_eq_iff.1 h
    · exact listed_of_funct7_funct3 (by rw [hop, h7, h3]; decide)
  iterate 3
    obtain ⟨⟨h7, h2, h3⟩, -⟩ | ⟨-, h⟩ := ite_eq_iff.1 h
    · exact listed_of_funct7_rs2_funct3 (by rw [hop, h7, h2, h3]; decide)
  cases h

theorem listed_of_decodeFloat (hop : opcodeOf w = 83) (h : decodeFloat w = .ok i) : Listed w := by
  cases hrm : decodeFloatRm w with
  | some j => exact listed_of_decodeFloatRm hop hrm
  | none =>
    cases hsel : decodeFloatSel w with
    | some j => exact listed_of_decodeFloatSel hop hsel
    | none => simp [decodeFloat, hrm, hsel] at h

theorem listed_of_decodeFence (hop : opcodeOf w = 15) (h : decodeFence w = .ok i) : Listed w := by
  obtain ⟨⟨h1, hd, hz, h3⟩, -⟩ | ⟨-, h⟩ := ite_eq_iff.1 h
  · exact listed_of_fence (by rw [hop, h1, hd, hz, h3]; decide)
  obtain ⟨⟨h1, hd, h12, h3⟩, -⟩ | ⟨-, h⟩ := ite_eq_iff.1 h
  · exact listed_of_all (by rw [hop, h1, h3, hd, h12]; decide)
  cases h

theorem listed_of_decodeSystem (hop : opcodeOf w = 115) (h : decodeSystem w = .ok i) : Listed w := by
  iterate 5
    obtain ⟨⟨h1, h3, hd, h12⟩, -⟩ | ⟨-, h⟩ := ite_eq_iff.1 h
    · exact listed_of_all (by rw [hop, h1, h3, hd, h12]; decide)
  iterate 6
    obtain ⟨⟨h1, h3, h12⟩, -⟩ | ⟨-, h⟩ := ite_eq_iff.1 h
    · exact listed_of_funct12 (by rw [hop, h1, h3, h12]; decide)
  cases h

/-- An opcode with one function decodes under that function only. -/
theorem of_ite_eq_ok {c : Prop} [Decidable c] {j : Instr} {e : DecodeError}
    (h : (if c then .ok j else .error e) = Except.ok i) : c := by
  obtain ⟨hc, -⟩ | ⟨-, h⟩ := ite_eq_iff.1 h
  · exact hc
  · cases h

/-- A word that the decoder accepts matches a row. -/
theorem listed_of_decodeBase (h : decodeBase w = .ok i) : Listed w := by
  iterate 3
    obtain ⟨hop, -⟩ | ⟨-, h⟩ := ite_eq_iff.1 h
    · exact listed_of_opcode (by rw [hop]; decide)
  obtain ⟨hop, h⟩ | ⟨-, h⟩ := ite_eq_iff.1 h
  · exact listed_of_funct3 (by rw [hop, of_ite_eq_ok h]; decide)
  obtain ⟨hop, h⟩ | ⟨-, h⟩ := ite_eq_iff.1 h
  · exact listed_of_decodeBranch hop h
  obtain ⟨hop, h⟩ | ⟨-, h⟩ := ite_eq_iff.1 h
  · exact listed_of_decodeLoad hop h
  obtain ⟨hop, h⟩ | ⟨-, h⟩ := ite_eq_iff.1 h
  · exact listed_of_funct3 (by rw [hop, of_ite_eq_ok h]; decide)
  obtain ⟨hop, h⟩ | ⟨-, h⟩ := ite_eq_iff.1 h
  · exact listed_of_decodeStore hop h
  obtain ⟨hop, h⟩ | ⟨-, h⟩ := ite_eq_iff.1 h
  · exact listed_of_funct3 (by rw [hop, of_ite_eq_ok h]; decide)
  obtain ⟨hop, h⟩ | ⟨-, h⟩ := ite_eq_iff.1 h
  · exact listed_of_decodeOpImm hop h
  obtain ⟨hop, h⟩ | ⟨-, h⟩ := ite_eq_iff.1 h
  · exact listed_of_decodeOp hop h
  obtain ⟨hop, h⟩ | ⟨-, h⟩ := ite_eq_iff.1 h
  · exact listed_of_decodeFloat hop h
  obtain ⟨hop, h⟩ | ⟨-, h⟩ := ite_eq_iff.1 h
  · exact listed_of_decodeFence hop h
  obtain ⟨hop, h⟩ | ⟨-, h⟩ := ite_eq_iff.1 h
  · exact listed_of_decodeSystem hop h
  cases h

end

/-! ### The table and the decoder agree -/

theorem row_eq_of_mnemonic {r q : TableRow} (hr : r ∈ tableRows) (hq : q ∈ tableRows) (h : r.mnemonic = q.mnemonic) :
    r = q := by
  have hnodup : (tableRows.map (·.mnemonic)).Nodup := by decide
  exact List.inj_on_of_nodup_map hnodup hr hq h

/-- Settles O4: two rows of one word name the one instruction that the decoder answers. -/
theorem tableRowsDisjoint : Obligations.TableRowsDisjoint := by
  intro w r q hr hq hrw hqw
  have hname : some r.mnemonic = some q.mnemonic :=
    (mnemonicOf_of_matches hr hrw).symm.trans (mnemonicOf_of_matches hq hqw)
  exact row_eq_of_mnemonic hr hq (Option.some.inj hname)

/-- Settles O3: a row's bits lead the decoder to its instruction, and a decoded word matches a row, which is the row of the
instruction's name. -/
theorem decodeMatchesTable : Obligations.DecodeMatchesTable := by
  intro w r hr
  rw [← mnemonicOf_eq_some]
  constructor
  · exact mnemonicOf_of_matches hr
  · intro hname
    obtain ⟨i, hi, -⟩ := mnemonicOf_eq_some.1 hname
    obtain ⟨q, hq, hqw⟩ := listed_of_decodeBase hi
    have heq : some q.mnemonic = some r.mnemonic := (mnemonicOf_of_matches hq hqw).symm.trans hname
    exact row_eq_of_mnemonic hq hr (Option.some.inj heq) ▸ hqw

/-- A word that matches no row has no instruction (R115). -/
theorem decode_of_unlisted {w : Word} (h : ∀ r ∈ tableRows, r.matches w = false) : ∃ e, decode w = .error e := by
  cases hd : decodeBase w with
  | error e => exact ⟨e, by rw [decode, hd]⟩
  | ok i =>
    obtain ⟨r, hr, hrw⟩ := listed_of_decodeBase hd
    exact absurd (h r hr) (by simp [hrw])

end Sys2Proof
end

section
/-! A fetched word that is no instruction (R115), the extended mnemonics (R117), and the immediate forms of the integer
instructions (spec/40_integer.md R133 to R141). -/

namespace Sys2Proof.Machine

/-! ### Words that are no instruction -/

/-- A step that fetches a word without an instruction refuses it by name (D6, log 12). -/
theorem step_of_decode_error {s : State} {w : Word} {e : DecodeError} (hw : s.waiting = false)
    (hr : s.interruptReady = false) (hf : fetch s = .next w) (hd : decode w = .error e) :
    step s = .refused (.unlistedEncoding w e) := by
  simp only [step, hw, hr, stepInstr, hf, andThen_next, hd, Bool.false_eq_true, if_false]
  rfl

/-- Settles O9: such a word does not decode. -/
theorem unlistedWordRefused : Obligations.UnlistedWordRefused := by
  intro s w hw hr hf hno
  obtain ⟨e, hd⟩ := decode_of_unlisted hno
  exact ⟨e, step_of_decode_error hw hr hf hd⟩

/-! ### Extended mnemonics -/

theorem writeX_zero (v : Word) (s : State) : writeX 0 v s = .next s.advance := by
  rw [writeX, State.setX_zero]

theorem immI_zero : immI 0 = 0 := rfl

theorem exec_nop (s : State) : exec .nop s = exec (.addi 0 0 0) s := (writeX_zero _ s).symm

theorem exec_ldi (rd : XReg) (imm : BitVec 12) (s : State) : exec (.ldi rd imm) s = exec (.ori rd 0 imm) s := by
  change writeX rd (immI imm) s = writeX rd (s.x 0 ||| immI imm) s
  rw [State.x_zero]
  exact congrArg (writeX rd · s) BitVec.zero_or.symm

theorem exec_mov (rd rs1 : XReg) (s : State) : exec (.mov rd rs1) s = exec (.or rd rs1 0) s := by
  change writeX rd (s.x rs1) s = writeX rd (s.x rs1 ||| s.x 0) s
  rw [State.x_zero]
  exact congrArg (writeX rd · s) BitVec.or_zero.symm

theorem exec_ret (s : State) : exec .ret s = exec (.jalr 0 1 0) s := by
  change Host.Outcome.next (s.setPc (clearLow2 (s.x 1))) =
    .next ((s.setX 0 s.link).setPc (clearLow2 (s.x 1 + immI 0)))
  rw [State.setX_zero, immI_zero, add_zero]

/-- A number with its own sign is itself. -/
theorem injectSign_self (a : Word) : injectSign (fpSign a) a = a := by
  have hsign : (if fpSign a then 1#1 else 0#1) = a.extractLsb' 31 1 := by
    apply BitVec.eq_of_getLsbD_eq
    intro i hi
    obtain rfl : i = 0 := by omega
    cases h : fpSign a <;> simpa [fpSign] using h.symm
  rw [injectSign, hsign, extract_join a 0 31 1]
  exact extract_all a

theorem exec_fmov (frd frs1 : FReg) (s : State) : exec (.fmov frd frs1) s = exec (.fsgnj frd frs1 frs1) s := by
  change writeFp frd (s.fp frs1) s = writeFp frd (injectSign (fpSign (s.fp frs1)) (s.fp frs1)) s
  rw [injectSign_self]

theorem exec_fabs (frd frs1 : FReg) (s : State) : exec (.fabs frd frs1) s = exec (.fsgnjx frd frs1 frs1) s := by
  change writeFp frd (injectSign false (s.fp frs1)) s =
    writeFp frd (injectSign (fpSign (s.fp frs1) ^^ fpSign (s.fp frs1)) (s.fp frs1)) s
  rw [Bool.xor_self]

/-- Settles O5: the words are those of the fixed fields, and the fixed operands leave of the base instruction's meaning
what the extended mnemonic does. -/
theorem extendedMnemonicsAreTheirBase : Obligations.ExtendedMnemonicsAreTheirBase :=
  ⟨⟨rfl, exec_nop⟩, fun rd imm => ⟨rfl, exec_ldi rd imm⟩, fun rd rs1 => ⟨rfl, exec_mov rd rs1⟩,
    fun _ => ⟨rfl, fun _ => rfl⟩, fun _ => ⟨rfl, fun _ => rfl⟩, ⟨rfl, exec_ret⟩,
    fun frd frs1 => ⟨rfl, exec_fmov frd frs1⟩, fun _ _ => ⟨rfl, fun _ => rfl⟩,
    fun frd frs1 => ⟨rfl, exec_fabs frd frs1⟩⟩

/-! ### Immediate operands (log 8) -/

theorem immI_toInt (imm : BitVec 12) : (immI imm).toInt = imm.toInt :=
  BitVec.toInt_signExtend_of_le (by decide)

theorem boolWord_decide (p : Prop) [Decidable p] : boolWord (decide p) = if p then 1 else 0 := by
  simp [boolWord]

theorem shiftLeft_eq (a : Word) (n : BitVec 5) : shiftLeft a n = BitVec.ofNat 32 (a.toNat * 2 ^ n.toNat) := by
  apply BitVec.eq_of_toNat_eq
  rw [shiftLeft, BitVec.toNat_shiftLeft, BitVec.toNat_ofNat, Nat.shiftLeft_eq]

theorem shiftRightLogical_eq (a : Word) (n : BitVec 5) :
    shiftRightLogical a n = BitVec.ofNat 32 (a.toNat / 2 ^ n.toNat) := by
  apply BitVec.eq_of_toNat_eq
  rw [shiftRightLogical, BitVec.toNat_ushiftRight, BitVec.toNat_ofNat, Nat.shiftRight_eq_div_pow,
    Nat.mod_eq_of_lt (Nat.lt_of_le_of_lt (Nat.div_le_self _ _) a.isLt)]

theorem shiftRightArith_eq (a : Word) (n : BitVec 5) :
    shiftRightArith a n = BitVec.ofInt 32 (a.toInt / 2 ^ n.toNat) := by
  rw [shiftRightArith, BitVec.sshiftRight, Int.shiftRight_eq_div_pow]
  norm_cast

/-- An instruction that ends by writing `v` to a register completes with any other way to say `v`. -/
theorem completesX_of_value {i : Instr} {s : State} {rd : XReg} {v u : Word} (hx : exec i s = writeX rd v s)
    (hv : v = u) : CompletesX i s rd u {} (s.pc + 4) := completesX_of_writeX (hx.trans (by rw [hv]))

/-- Settles O13: every form writes one register, and what it writes is the number stated. -/
theorem integerImmediateForms : Obligations.IntegerImmediateForms := by
  intro s rd rs1 imm shamt
  refine ⟨completesX_of_value rfl (s.ea_eq_ofInt rs1 imm), completesX_of_value rfl ?_,
    completesX_of_value rfl (boolWord_decide _), completesX_of_writeX rfl, completesX_of_writeX rfl,
    completesX_of_writeX rfl, completesX_of_value rfl (shiftLeft_eq _ _),
    completesX_of_value rfl (shiftRightLogical_eq _ _), completesX_of_value rfl (shiftRightArith_eq _ _)⟩
  rw [signedLt, immI_toInt, boolWord_decide]

end Sys2Proof.Machine
end

section
/-! The register forms and the upper-immediate forms of the integer instructions (spec/40_integer.md R131, R132, R142 to
R156), and the instructions that leave memory as it is (R39, R130). -/

namespace Sys2Proof.Machine

/-! ### Upper immediates (R105) -/

theorem immU_toNat (imm : BitVec 20) : (immU imm).toNat = imm.toNat * 4096 := by
  rw [immU, BitVec.toNat_append, ← Nat.shiftLeft_add_eq_or_of_lt (0#12).isLt, Nat.shiftLeft_eq]
  norm_num

/-! ### Arithmetic of words as arithmetic of numbers (R7) -/

theorem mul_eq_ofNat (a b : Word) : a * b = BitVec.ofNat 32 (a.toNat * b.toNat) := rfl

theorem sub_eq_ofInt (a b : Word) : a - b = BitVec.ofInt 32 (a.toInt - b.toInt) := by
  apply BitVec.eq_of_toInt_eq
  rw [BitVec.toInt_sub, BitVec.toInt_ofInt]

/-- Settles O14: LUI and AUIPC form a number from their field, LDI and MOV copy, and NOP only goes on. -/
theorem upperMoveAndNopForms : Obligations.UpperMoveAndNopForms := by
  intro s rd rs1 imm20 imm
  refine ⟨completesX_of_value rfl ?_, completesX_of_value rfl ?_, completesX_of_writeX rfl, completesX_of_writeX rfl,
    completesPc_of_advance rfl⟩
  · rw [← immU_toNat, BitVec.ofNat_toNat, BitVec.setWidth_eq]
  · rw [← immU_toNat, BitVec.add_def]

/-! ### Register shifts (R145, log 9) -/

theorem shiftAmount_toNat (v : Word) : (shiftAmount v).toNat = v.toNat % 32 := BitVec.extractLsb'_toNat 0 5 v

/-- Settles O12: every form writes one register, and what it writes is the number stated. -/
theorem integerRegisterForms : Obligations.IntegerRegisterForms := by
  intro s rd rs1 rs2
  simp only [← shiftAmount_toNat]
  exact ⟨completesX_of_value rfl (BitVec.add_def _ _), completesX_of_value rfl (sub_eq_ofInt _ _),
    completesX_of_value rfl (mul_eq_ofNat _ _), completesX_of_value rfl (shiftLeft_eq _ _),
    completesX_of_value rfl (shiftRightLogical_eq _ _), completesX_of_value rfl (shiftRightArith_eq _ _),
    completesX_of_value rfl (boolWord_decide _), completesX_of_value rfl (boolWord_decide _),
    completesX_of_writeX rfl, completesX_of_writeX rfl, completesX_of_writeX rfl⟩

/-! ### Results with the same memory -/

/-- Where `r` answers a next state, its memory is that of `s`. -/
def KeepsMemory (s : State) (r : Result) : Prop := ∀ t, r = .next t → t.mem = s.mem

namespace KeepsMemory

variable {s : State}

theorem next {t : State} (h : t.mem = s.mem) : KeepsMemory s (.next t) := by
  rintro _ ⟨⟩
  exact h

theorem andThen {α : Type} (o : Host.Outcome α Fault Refusal) {k : α → Result} (hk : ∀ a, KeepsMemory s (k a)) :
    KeepsMemory s (andThen o k) := by
  intro t h
  obtain ⟨a, -, ha⟩ := andThen_eq_next.1 h
  exact hk a t ha

theorem withRounding {rm : BitVec 3} {k : Rounding → Result} (hk : ∀ m, KeepsMemory s (k m)) :
    KeepsMemory s (withRounding rm s k) := by
  intro t h
  obtain ⟨m, -, hm⟩ := withRounding_eq_next.1 h
  exact hk m t hm

theorem writeX (rd : XReg) (v : Word) : KeepsMemory s (writeX rd v s) := .next (by simp)

theorem writeFp (frd : FReg) (v : Word) : KeepsMemory s (writeFp frd v s) := .next (by simp)

theorem deliverX (rd : XReg) (v : Word) (fl : FFlags) : KeepsMemory s (deliverX rd v fl s) := .next (by simp)

theorem deliverFp (frd : FReg) (r : Rounded) (fl : FFlags) : KeepsMemory s (deliverFp frd r fl s) := .next (by simp)

theorem branchTo (a : Word) : KeepsMemory s (branchTo a s) := by
  intro t h
  obtain ⟨-, rfl⟩ := branchTo_eq_next.1 h
  simp

theorem branchIf (taken : Bool) (off : BitVec 12) : KeepsMemory s (branchIf taken off s) := by
  cases taken with
  | true => exact branchTo _
  | false => exact next s.advance_mem

theorem loadThen (rs1 : XReg) (imm : BitVec 12) (n : Nat) {k : Word → State → Result}
    (hk : ∀ v, KeepsMemory s (k v s)) : KeepsMemory s (loadThen rs1 imm n s k) :=
  andThen _ fun v => by simpa using hk v

theorem raiseTrap (c : TrapCause) : KeepsMemory s (raiseTrap c s) := by
  intro t h
  obtain ⟨-, rfl⟩ := raiseTrap_eq_next.1 h
  exact trapEnter_mem s _

end KeepsMemory

theorem waitForInterrupt_mem (s : State) : (waitForInterrupt s).mem = s.mem := by
  obtain ⟨-, -, -, h⟩ | ⟨-, -, h⟩ | ⟨-, h⟩ := waitForInterrupt_cases s
  · rw [h]
    rfl
  · rw [h, State.advance_mem]
  · rw [h]

/-- No meaning but those of the stores reaches memory: the others write registers, flags, program counters, masks or the
wait. -/
theorem exec_keepsMemory {i : Instr} (hi : isStore i = false) (s : State) : KeepsMemory s (exec i s) := by
  cases i with
  | lui | auipc | ldi | addi | slti | sltui | xori | ori | andi | slli | srli | srai | add | sub | mul | sll | slt | sltu
  | xor | srl | sra | or | and | mov | fmvXS | fclass | rdcycle | rdcycleh | rdtime | rdtimeh | rdinstret | rdinstreth =>
    exact .writeX _ _
  | fsgnj | fsgnjn | fsgnjx | fmov | fneg | fabs | fmvSX => exact .writeFp _ _
  | fmin | fmax => exact .next (by simp)
  | feq | flt | fle => exact .deliverX _ _ _
  | fadd | fsub | fmul | fdiv | fsqrt | fcvtSW | fcvtSWu => exact .withRounding fun _ => .deliverFp _ _ _
  | fcvtWS | fcvtWuS => exact .withRounding fun _ => .deliverX _ _ _
  | nop | fence | fenceI => exact .next s.advance_mem
  | jal | call | jalr | ret => exact .next (by simp)
  | beq | bne | blt | bge | bltu | bgeu => exact .branchIf _ _
  | bra => exact .branchTo _
  | lb | lh | lw | lbu | lhu => exact .loadThen _ _ _ fun _ => .writeX _ _
  | flw => exact .loadThen _ _ _ fun _ => .writeFp _ _
  | sb | sh | sw | fsw => cases hi
  | ecall | ebreak => exact .raiseTrap _
  | eret =>
    intro t h
    obtain ⟨-, rfl⟩ := execEret_eq_next.1 h
    exact trapReturn_mem s
  | wfi => exact .next (waitForInterrupt_mem s)
  | pfi =>
    intro t h
    obtain ⟨-, -, rfl⟩ | ⟨-, rfl⟩ := execPfi_eq_next.1 h
    · exact trapEnter_mem s _
    · exact s.advance_mem

/-- Settles O24: memory is the same data after every instruction whose meaning is no store. -/
theorem onlyStoresChangeMemory : Obligations.OnlyStoresChangeMemory := fun _ s t hi => exec_keepsMemory hi s t

end Sys2Proof.Machine
end

section
/-! Jumps and branches (spec/41_control_flow.md R170 to R177, R180 to R184): targets as numbers, the frames of
instructions that end by setting the program counter, and the transfers that are refused (R67, R176; log 11). -/

namespace Sys2Proof.Machine

/-! ### Targets as numbers -/

/-- A displacement in units of two bytes (R108, R109). -/
theorem toInt_signExtend_append_zero {n : Nat} (off : BitVec n) (hn : n + 1 ≤ 32) :
    ((off ++ 0#1).signExtend 32).toInt = 2 * off.toInt := by
  rw [BitVec.toInt_signExtend_of_le hn, BitVec.toInt_append_zero, pow_one]

theorem immB_toInt (off : BitVec 12) : (immB off).toInt = 2 * off.toInt :=
  toInt_signExtend_append_zero off (by omega)

theorem immJ_toInt (off : BitVec 20) : (immJ off).toInt = 2 * off.toInt :=
  toInt_signExtend_append_zero off (by omega)

theorem add_eq_ofInt (a b : Word) : a + b = BitVec.ofInt 32 (a.toInt + b.toInt) := by
  rw [BitVec.ofInt_add, BitVec.ofInt_toInt, BitVec.ofInt_toInt]

/-- What a branch adds to its own address gives the target (R174). -/
theorem add_immB (s : State) (off : BitVec 12) : s.pc + immB off = branchTarget s off := by
  rw [add_eq_ofInt, immB_toInt, branchTarget]

theorem clearLow2_eq_shift (a : Word) : clearLow2 a = a >>> 2 <<< 2 := by
  have hmask : ∀ i < 32, (0xFFFFFFFC : Word).getLsbD i = decide (2 ≤ i) := by decide
  apply BitVec.eq_of_getLsbD_eq
  intro i hi
  rw [clearLow2, BitVec.getLsbD_and, hmask i hi, BitVec.getLsbD_shiftLeft, BitVec.getLsbD_ushiftRight]
  by_cases h : 2 ≤ i
  · simp [h, hi, show ¬ i < 2 by omega, show 2 + (i - 2) = i by omega]
  · simp [h, show i < 2 by omega]

/-- Clearing the two low bits gives the greatest multiple of 4 not above a word. -/
theorem clearLow2_toNat (a : Word) : (clearLow2 a).toNat = a.toNat / 4 * 4 := by
  rw [clearLow2_eq_shift, BitVec.toNat_shiftLeft, BitVec.toNat_ushiftRight, Nat.shiftLeft_eq,
    Nat.shiftRight_eq_div_pow]
  omega

/-- It makes no difference whether a sum is taken modulo 2^32 before or after its two low bits are cleared. -/
theorem clearLow2_ofInt (x : Int) : clearLow2 (BitVec.ofInt 32 x) = jumpTarget x := by
  apply BitVec.eq_of_toNat_eq
  rw [clearLow2_toNat, jumpTarget, BitVec.toNat_ofInt, BitVec.toNat_ofInt]
  omega

theorem clearLow2_add (a b : Word) : clearLow2 (a + b) = jumpTarget (a.toInt + b.toInt) := by
  rw [add_eq_ofInt, clearLow2_ofInt]

theorem clearLow2_eq_jumpTarget (a : Word) : clearLow2 a = jumpTarget a.toInt := by
  rw [← clearLow2_ofInt, BitVec.ofInt_toInt]

/-! ### The frames of instructions that end by setting the program counter -/

/-- An instruction that only goes on at an aligned address changes nothing else. -/
theorem completesPc_of_setPc {i : Instr} {s : State} {a : Word} (hx : exec i s = .next (s.setPc a)) (ha : Aligned a) :
    CompletesPc i s a :=
  have heffect := OrdinaryEffect.setPc s fun _ => ha
  ⟨s.setPc a, hx, by simp, fun r => by simp, fun r => by simp, by simp, heffect.control, heffect.other,
    fun b => by simp⟩

/-- A jump that links writes the link register, goes on at its target and changes nothing else. -/
theorem completesX_of_link {i : Instr} {s : State} {rd : XReg} {a : Word}
    (hx : exec i s = .next ((s.setX rd s.link).setPc a)) (ha : Aligned a) : CompletesX i s rd (s.pc + 4) {} a := by
  have heffect := (OrdinaryEffect.setX s rd s.link).trans (.setPc _ fun _ => ha)
  refine ⟨_, hx, fun r => ?_, by simp, by simp, fun r => by simp, heffect.control, heffect.other, fun b => by simp⟩
  rw [State.setPc_x, State.setX_x, State.link]

/-! ### Jumps -/

/-- A jump and link to an address whose two low bits are cleared, by what that address is as a number. -/
theorem completesX_of_jump {i : Instr} {s : State} {rd : XReg} {a b : Word}
    (hx : exec i s = .next ((s.setX rd s.link).setPc (clearLow2 (a + b)))) :
    CompletesX i s rd (s.pc + 4) {} (jumpTarget (a.toInt + b.toInt)) :=
  clearLow2_add a b ▸ completesX_of_link hx (aligned_clearLow2 _)

/-- Settles O15: JAL, CALL and JALR jump and link, RET jumps; each target is a sum with its two low bits cleared. -/
theorem jumpForms : Obligations.JumpForms := by
  intro s rd rs1 off imm
  rw [← immJ_toInt, ← immI_toInt, ← clearLow2_eq_jumpTarget]
  exact ⟨completesX_of_jump rfl, completesX_of_jump rfl, completesX_of_jump rfl,
    completesPc_of_setPc rfl (aligned_clearLow2 _)⟩

/-! ### Branches -/

theorem branchTo_of_aligned {a : Word} (s : State) (ha : Aligned a) : branchTo a s = .next (s.setPc a) :=
  branchTo_eq_next.2 ⟨ha, rfl⟩

/-- BRANCH_MISALIGNED is set to refuse (D5, log 11). -/
theorem branchTo_of_not_aligned {a : Word} (s : State) (ha : ¬ Aligned a) :
    branchTo a s = .refused (.misalignedBranchTarget a) := if_neg ha

/-- The instruction is a branch on the condition `p` (R174): to its target where `p` holds, else to the next
instruction. -/
structure BranchesOn (i : Instr) (s : State) (p : Prop) (off : BitVec 12) : Prop where
  taken : p → exec i s = branchTo (branchTarget s off) s
  notTaken : ¬ p → exec i s = .next s.advance

/-- A meaning that ends by branching on a truth value that says whether `p` holds. -/
theorem branchesOn_of_branchIf {i : Instr} {s : State} {p : Prop} {taken : Bool} {off : BitVec 12}
    (hx : exec i s = branchIf taken off s) (hp : taken = true ↔ p) : BranchesOn i s p off where
  taken h := add_immB s off ▸ hx.trans (if_pos (hp.2 h))
  notTaken h := hx.trans (if_neg (mt hp.1 h))

/-! Each branch and its condition (R175, R177, R180 to R184). -/

section
variable (s : State) (rs1 rs2 : XReg) (off : BitVec 12)

theorem beq_branchesOn : BranchesOn (.beq rs1 rs2 off) s (s.x rs1 = s.x rs2) off :=
  branchesOn_of_branchIf rfl beq_iff_eq

theorem bne_branchesOn : BranchesOn (.bne rs1 rs2 off) s (s.x rs1 ≠ s.x rs2) off :=
  branchesOn_of_branchIf rfl bne_iff_ne

theorem blt_branchesOn : BranchesOn (.blt rs1 rs2 off) s ((s.x rs1).toInt < (s.x rs2).toInt) off :=
  branchesOn_of_branchIf rfl (by simp [signedLt])

theorem bge_branchesOn : BranchesOn (.bge rs1 rs2 off) s ((s.x rs2).toInt ≤ (s.x rs1).toInt) off :=
  branchesOn_of_branchIf rfl (by simp [signedLt])

theorem bltu_branchesOn : BranchesOn (.bltu rs1 rs2 off) s ((s.x rs1).toNat < (s.x rs2).toNat) off :=
  branchesOn_of_branchIf rfl (by simp [unsignedLt])

theorem bgeu_branchesOn : BranchesOn (.bgeu rs1 rs2 off) s ((s.x rs2).toNat ≤ (s.x rs1).toNat) off :=
  branchesOn_of_branchIf rfl (by simp [unsignedLt])

theorem exec_bra : exec (.bra off) s = branchTo (branchTarget s off) s := congrArg (branchTo · s) (add_immB s off)

end

/-- A branch whose target is aligned, or which is not taken, completes and changes the program counter alone. -/
theorem BranchesOn.completesPc {i : Instr} {s : State} {p : Prop} [Decidable p] {off : BitVec 12}
    (h : BranchesOn i s p off) (ha : p → Aligned (branchTarget s off)) :
    CompletesPc i s (if p then branchTarget s off else s.pc + 4) := by
  by_cases hp : p
  · rw [if_pos hp]
    exact completesPc_of_setPc ((h.taken hp).trans (branchTo_of_aligned s (ha hp))) (ha hp)
  · rw [if_neg hp]
    exact completesPc_of_advance (h.notTaken hp)

/-- A taken branch to an address that is not a multiple of 4 is refused (R176). -/
theorem BranchesOn.refused {i : Instr} {s : State} {p : Prop} {off : BitVec 12} (h : BranchesOn i s p off)
    (ha : ¬ Aligned (branchTarget s off)) (hp : p) :
    exec i s = .refused (.misalignedBranchTarget (branchTarget s off)) :=
  (h.taken hp).trans (branchTo_of_not_aligned s ha)

/-- Settles O16: the six conditional branches by their conditions, and BRA, which is always taken. -/
theorem branchForms : Obligations.BranchForms := fun s rs1 rs2 off =>
  ⟨(beq_branchesOn s rs1 rs2 off).completesPc, (bne_branchesOn s rs1 rs2 off).completesPc,
    (blt_branchesOn s rs1 rs2 off).completesPc, (bge_branchesOn s rs1 rs2 off).completesPc,
    (bltu_branchesOn s rs1 rs2 off).completesPc, (bgeu_branchesOn s rs1 rs2 off).completesPc,
    fun ha => completesPc_of_setPc ((exec_bra s off).trans (branchTo_of_aligned s ha)) ha⟩

/-! ### Transfers that are refused -/

/-- A fetch reads at multiples of 4 only (R67). -/
theorem fetch_of_not_aligned {s : State} (ha : ¬ Aligned s.pc) : fetch s = .refused (.misalignedFetch s.pc) := by
  rw [fetch_eq, if_neg (mt fetchAligned_iff.1 ha)]

theorem andThen_refused {α β : Type} (r : Refusal) (k : α → Host.Outcome β Fault Refusal) :
    andThen (.refused r) k = .refused r := rfl

/-- A step whose fetch is refused is refused for the same reason. -/
theorem step_of_fetch_refused {s : State} {r : Refusal} (hw : s.waiting = false) (hr : s.interruptReady = false)
    (hf : fetch s = .refused r) : step s = .refused r := by
  simp only [step, hw, hr, stepInstr, hf, andThen_refused, Bool.false_eq_true, if_false]

/-- Settles O17: the step that would fetch at such an address, and the seven branches to one. -/
theorem misalignedTransferRefused : Obligations.MisalignedTransferRefused := by
  refine ⟨fun s hw hr ha => step_of_fetch_refused hw hr (fetch_of_not_aligned ha), fun s rs1 rs2 off ha => ?_⟩
  exact ⟨(beq_branchesOn s rs1 rs2 off).refused ha, (bne_branchesOn s rs1 rs2 off).refused ha,
    (blt_branchesOn s rs1 rs2 off).refused ha, (bge_branchesOn s rs1 rs2 off).refused ha,
    (bltu_branchesOn s rs1 rs2 off).refused ha, (bgeu_branchesOn s rs1 rs2 off).refused ha,
    (exec_bra s off).trans (branchTo_of_not_aligned s ha)⟩

end Sys2Proof.Machine
end

section
/-! How the floating-point instructions end (spec/43_floating_point.md R212 to R216, R220 to R242): the effective rounding
mode, the registers and flags that change, and what is left alone. -/

namespace Sys2Proof.Machine

/-! ### The effective rounding mode (R212, R213) -/

theorem withRounding_of_mode {rm : BitVec 3} {s : State} {m : Rounding} (h : roundingOfCode (s.rmCode rm) = some m)
    (k : Rounding → Result) : withRounding rm s k = k m := by
  rw [withRounding, h]

theorem withRounding_of_reserved {rm : BitVec 3} {s : State} (h : roundingOfCode (s.rmCode rm) = none)
    (k : Rounding → Result) : withRounding rm s k = .refused (.reservedRoundingMode (s.rmCode rm)) := by
  rw [withRounding, h]

/-- The codes of the five modes. -/
theorem roundingOfCode_eq_some (c : BitVec 3) (m : Rounding) : roundingOfCode c = some m ↔
    c.toNat = match m with
      | .rne => 0
      | .rtz => 1
      | .rdn => 2
      | .rup => 3
      | .rmm => 4 := by
  cases m <;> revert c <;> decide

/-- The codes of no mode. -/
theorem roundingOfCode_eq_none {c : BitVec 3} (h : 5 ≤ c.toNat) : roundingOfCode c = none := by
  revert c
  decide

/-- Settles O27: a code has a mode or is reserved, and all nine instructions start with the effective code. -/
theorem roundingModeCodes : Obligations.RoundingModeCodes := by
  refine ⟨roundingOfCode_eq_some, ?_⟩
  rintro s d frs1 frs2 rs1 rm _ rfl hc
  have hk := withRounding_of_reserved (rm := rm) (s := s) (roundingOfCode_eq_none hc)
  exact ⟨hk _, hk _, hk _, hk _, hk _, hk _, hk _, hk _, hk _⟩

/-! ### The frames of instructions that end by delivering a result -/

/-- A meaning that ends by delivering a floating-point result writes it, adds the flags and does nothing else. -/
theorem completesFp_of_deliverFp {i : Instr} {s : State} {frd : FReg} {r : Rounded} {fl : FFlags}
    (h : exec i s = deliverFp frd r fl s) : CompletesFp i s frd r.bits fl := by
  have heffect := OrdinaryEffect.of_writeFp_flags (s := s) (frd := frd) (v := r.bits) (fl := fl) rfl
  refine ⟨((s.raiseFlags fl).setFp frd r.bits).advance, h, fun r => ?_, State.advance_pc _,
    by simp [State.raiseFlags], fun r => by simp [State.x, State.bank], heffect.control, heffect.other, fun a => by simp⟩
  rw [State.advance_fp, State.setFp_fp]
  rfl

/-- A meaning that ends by delivering an integer writes it, adds the flags and does nothing else. -/
theorem completesX_of_deliverX {i : Instr} {s : State} {rd : XReg} {v : Word} {fl : FFlags}
    (h : exec i s = deliverX rd v fl s) : CompletesX i s rd v fl (s.pc + 4) := by
  have heffect := OrdinaryEffect.of_deliverX (s := s) (rd := rd) (v := v) (fl := fl) rfl
  refine ⟨((s.raiseFlags fl).setX rd v).advance, h, fun r => ?_,
    (State.advance_pc _).trans (congrArg (· + 4) (State.setX_pc _ _ _)), by simp [State.raiseFlags],
    fun r => by simp [State.fp], heffect.control, heffect.other, fun a => by simp⟩
  rw [State.advance_x, State.setX_x]
  rfl

/-! ### Arithmetic and conversions -/

/-- Settles O25: with the mode of the effective code each of the five delivers its result and the flags of model
`source`. -/
theorem floatArithmeticForms : Obligations.FloatArithmeticForms := by
  rintro s frd frs1 frs2 rm m _ _ hm rfl rfl
  have hk := withRounding_of_mode (rm := rm) (s := s) hm
  refine ⟨completesFp_of_deliverFp ((hk _).trans ?_), completesFp_of_deliverFp ((hk _).trans ?_),
    completesFp_of_deliverFp ((hk _).trans ?_), completesFp_of_deliverFp ((hk _).trans ?_),
    completesFp_of_deliverFp (hk _)⟩
  · simp [addFlags, fpFlagModel, sourceFlags, Bool.and_assoc]
  · simp [addFlags, fpFlagModel, sourceFlags, Bool.and_assoc]
  · simp [mulFlags, fpFlagModel, sourceFlags, Bool.and_assoc]
  · simp [divFlags, fpFlagModel, sourceFlags, Bool.and_assoc]

/-- Settles O26: with the mode of the effective code each of the four delivers its result and the flags of the
conversion. -/
theorem convertForms : Obligations.ConvertForms := by
  intro s d frs1 rs1 rm m hm
  have hk := withRounding_of_mode (rm := rm) (s := s) hm
  exact ⟨completesX_of_deliverX (hk _), completesX_of_deliverX (hk _), completesFp_of_deliverFp (hk _),
    completesFp_of_deliverFp (hk _)⟩

/-! ### Moves between registers (R227 to R232, R240, R242) -/

/-- The sign bit as a field of one bit. -/
theorem signBit_eq (a : Word) : (if fpSign a then 1#1 else 0#1) = a.extractLsb' 31 1 := by
  apply BitVec.eq_of_getLsbD_eq
  intro i hi
  obtain rfl : i = 0 := by omega
  cases h : fpSign a <;> simpa [fpSign] using h.symm

theorem not_signBit_eq (a : Word) : (if !fpSign a then 1#1 else 0#1) = ~~~a.extractLsb' 31 1 := by
  rw [← signBit_eq]
  cases fpSign a <;> rfl

theorem xor_signBit_eq (a b : Word) :
    (if fpSign a ^^ fpSign b then 1#1 else 0#1) = a.extractLsb' 31 1 ^^^ b.extractLsb' 31 1 := by
  rw [← signBit_eq, ← signBit_eq]
  cases fpSign a <;> cases fpSign b <;> rfl

/-- An instruction that ends by writing `v` to a floating-point register completes with any other way to say `v`. -/
theorem completesFp_of_value {i : Instr} {s : State} {frd : FReg} {v u : Word} (hx : exec i s = writeFp frd v s)
    (hv : v = u) : CompletesFp i s frd u {} := completesFp_of_writeFp (hx.trans (by rw [hv]))

/-- FMIN and FMAX deliver their number as a result is delivered, with no flag (R225, log 22). -/
theorem completesFp_of_quiet {i : Instr} {s : State} {frd : FReg} {a b v : Word}
    (h : exec i s = writeFp frd v (s.raiseFlags (quietFlags a b))) : CompletesFp i s frd v {} :=
  completesFp_of_deliverFp (r := { bits := v }) h

/-- Settles O39: each of the nine ends by writing one floating-point register, and the sign it injects is the bit
stated. -/
theorem floatMoveForms : Obligations.FloatMoveForms := by
  rintro s frd frs1 frs2 rs1 _ _ rfl rfl
  exact ⟨completesFp_of_value rfl (congrArg (· ++ _) (signBit_eq _)),
    completesFp_of_value rfl (congrArg (· ++ _) (not_signBit_eq _)),
    completesFp_of_value rfl (congrArg (· ++ _) (xor_signBit_eq _ _)), completesFp_of_writeFp rfl,
    completesFp_of_value rfl (congrArg (· ++ _) (not_signBit_eq _)), completesFp_of_writeFp rfl,
    completesFp_of_writeFp rfl, completesFp_of_quiet rfl, completesFp_of_quiet rfl⟩

/-! ### Compares and FCLASS (R233 to R235, R241) -/

/-- The truth value of a compare of operands that must be no Nans. -/
theorem boolWord_ordered (a b : Word) (p : Prop) [Decidable p] :
    boolWord (!isNan a && !isNan b && decide p) = if isNan a = false ∧ isNan b = false ∧ p then 1 else 0 := by
  simp [boolWord, and_assoc]

/-- A compare completes with the value of its condition and no flag. -/
theorem completesX_of_compare {i : Instr} {s : State} {rd : XReg} {a b : Word} {p : Prop} [Decidable p]
    (h : exec i s = deliverX rd (boolWord (!isNan a && !isNan b && decide p)) {} s) :
    CompletesX i s rd (if isNan a = false ∧ isNan b = false ∧ p then 1 else 0) {} (s.pc + 4) :=
  boolWord_ordered a b p ▸ completesX_of_deliverX h

/-- Settles O41: each of the five ends by writing one integer register, with no flag under model `source`. -/
theorem floatToIntegerForms : Obligations.FloatToIntegerForms := by
  rintro s rd frs1 frs2 _ _ rfl rfl
  refine ⟨completesX_of_compare rfl, completesX_of_compare rfl, completesX_of_compare rfl, completesX_of_writeX rfl,
    completesX_of_value rfl ?_⟩
  apply BitVec.eq_of_toNat_eq
  rw [BitVec.toNat_shiftLeft, BitVec.toNat_ofNat, Nat.shiftLeft_eq]
  exact congrArg (· % 2 ^ 32) (Nat.one_mul _).symm

end Sys2Proof.Machine
end

section
/-! Single-precision words as a sign and 31 low bits (spec/43_floating_point.md R210, R211, R241): the classes by the low
bits, and magnitudes as a strictly rising function of them. -/

namespace Sys2Proof.Machine

/-! ### Sign and low bits -/

/-- The 31 bits below the sign: exponent and fraction as one number, which rises with the magnitude. -/
def fpLow (w : Word) : ℕ := w.toNat % 2 ^ 31

theorem fpLow_lt (w : Word) : fpLow w < 2 ^ 31 := Nat.mod_lt _ (by decide)

theorem fpSign_eq_decide (w : Word) : fpSign w = decide (2 ^ 31 ≤ w.toNat) := BitVec.msb_eq_decide w

theorem toNat_eq_sign_add_fpLow (w : Word) : w.toNat = (if fpSign w then 2 ^ 31 else 0) + fpLow w := by
  have := w.isLt
  simp only [fpSign_eq_decide, fpLow, decide_eq_true_eq]
  split_ifs <;> omega

theorem fpExp_toNat (w : Word) : (fpExp w).toNat = fpLow w / 2 ^ 23 := by
  rw [fpExp, BitVec.extractLsb'_toNat, Nat.shiftRight_eq_div_pow, fpLow]
  omega

theorem fpFrac_toNat (w : Word) : (fpFrac w).toNat = fpLow w % 2 ^ 23 := by
  rw [fpFrac, BitVec.extractLsb'_toNat, Nat.shiftRight_eq_div_pow, fpLow]
  omega

theorem word_ext {a b : Word} (hs : fpSign a = fpSign b) (hl : fpLow a = fpLow b) : a = b := by
  apply BitVec.eq_of_toNat_eq
  rw [toNat_eq_sign_add_fpLow a, toNat_eq_sign_add_fpLow b, hs, hl]

theorem withSign_toNat (sign : Bool) {n : ℕ} (hn : n < 2 ^ 31) :
    (withSign sign n).toNat = (if sign then 2 ^ 31 else 0) + n := by
  rw [withSign, BitVec.toNat_ofNat, Nat.mod_eq_of_lt]
  cases sign <;> simp <;> omega

theorem fpLow_withSign (sign : Bool) {n : ℕ} (hn : n < 2 ^ 31) : fpLow (withSign sign n) = n := by
  rw [fpLow, withSign_toNat sign hn]
  split_ifs <;> omega

theorem fpSign_withSign (sign : Bool) {n : ℕ} (hn : n < 2 ^ 31) : fpSign (withSign sign n) = sign := by
  rw [fpSign_eq_decide, withSign_toNat sign hn]
  cases sign
  · simpa using hn
  · simp

/-- A word is made of its sign and its low bits. -/
theorem eq_withSign_iff {a : Word} {sign : Bool} {n : ℕ} (hn : n < 2 ^ 31) :
    a = withSign sign n ↔ fpSign a = sign ∧ fpLow a = n := by
  constructor
  · rintro rfl
    exact ⟨fpSign_withSign sign hn, fpLow_withSign sign hn⟩
  · rintro ⟨hs, hl⟩
    exact word_ext (hs.trans (fpSign_withSign sign hn).symm) (hl.trans (fpLow_withSign sign hn).symm)

/-- A word is made of its three fields. -/
theorem eq_iff_fields (a b : Word) :
    a = b ↔ fpSign a = fpSign b ∧ fpExp a = fpExp b ∧ fpFrac a = fpFrac b := by
  refine ⟨fun h => h ▸ ⟨rfl, rfl, rfl⟩, fun ⟨hs, he, hf⟩ => word_ext hs ?_⟩
  have he' := congrArg BitVec.toNat he
  have hf' := congrArg BitVec.toNat hf
  rw [fpExp_toNat, fpExp_toNat] at he'
  rw [fpFrac_toNat, fpFrac_toNat] at hf'
  omega

/-! ### The classes (R210, R211) -/

theorem fpExp_eq_iff (w : Word) (e : BitVec 8) : fpExp w = e ↔ fpLow w / 2 ^ 23 = e.toNat := by
  rw [← BitVec.toNat_inj, fpExp_toNat]

theorem fpFrac_eq_zero_iff (w : Word) : fpFrac w = 0 ↔ fpLow w % 2 ^ 23 = 0 := by
  rw [← BitVec.toNat_inj, fpFrac_toNat]
  rfl

theorem isNan_iff (w : Word) : isNan w = true ↔ infBits < fpLow w := by
  have := fpLow_lt w
  simp only [isNan, Bool.and_eq_true, beq_iff_eq, bne_iff_ne, ne_eq, fpExp_eq_iff, fpFrac_eq_zero_iff,
    BitVec.reduceToNat, infBits]
  omega

theorem isInf_iff (w : Word) : isInf w = true ↔ fpLow w = infBits := by
  simp only [isInf, Bool.and_eq_true, beq_iff_eq, fpExp_eq_iff, fpFrac_eq_zero_iff, BitVec.reduceToNat, infBits]
  omega

theorem isZero_iff (w : Word) : isZero w = true ↔ fpLow w = 0 := by
  simp only [isZero, Bool.and_eq_true, beq_iff_eq, fpExp_eq_iff, fpFrac_eq_zero_iff, BitVec.reduceToNat]
  omega

theorem isFinite_iff (w : Word) : isFinite w = true ↔ fpLow w < infBits := by
  have := fpLow_lt w
  simp only [isFinite, bne_iff_ne, ne_eq, fpExp_eq_iff, BitVec.reduceToNat, infBits]
  omega

theorem infBits_lt : infBits < 2 ^ 31 := by decide

/-- An infinity is the one of its sign. -/
theorem eq_signedInf {w : Word} (h : isInf w = true) : w = signedInf (fpSign w) :=
  (eq_withSign_iff infBits_lt).2 ⟨rfl, (isInf_iff w).1 h⟩

/-- A zero is the one of its sign. -/
theorem eq_signedZero {w : Word} (h : isZero w = true) : w = signedZero (fpSign w) :=
  (eq_withSign_iff (by decide)).2 ⟨rfl, (isZero_iff w).1 h⟩

theorem isFinite_of_isZero {w : Word} (h : isZero w = true) : isFinite w = true := by
  rw [isFinite_iff, (isZero_iff w).1 h]
  decide

theorem isInf_of_isFinite {w : Word} (h : isFinite w = true) : isInf w = false := by
  rw [isFinite_iff] at h
  rw [Bool.eq_false_iff, ne_eq, isInf_iff]
  omega

theorem isNan_of_isFinite {w : Word} (h : isFinite w = true) : isNan w = false := by
  rw [isFinite_iff] at h
  rw [Bool.eq_false_iff, ne_eq, isNan_iff]
  omega

theorem isNan_of_isInf {w : Word} (h : isInf w = true) : isNan w = false := by
  rw [isInf_iff] at h
  rw [Bool.eq_false_iff, ne_eq, isNan_iff]
  omega

theorem isZero_of_isInf {w : Word} (h : isInf w = true) : isZero w = false := by
  rw [isInf_iff] at h
  rw [Bool.eq_false_iff, ne_eq, isZero_iff, h]
  decide

/-- A word that is no Nan is finite or an infinity. -/
theorem isFinite_or_isInf {w : Word} (h : isNan w = false) : isFinite w = true ∨ isInf w = true := by
  rw [Bool.eq_false_iff, ne_eq, isNan_iff] at h
  rw [isFinite_iff, isInf_iff]
  omega

/-! ### FCLASS (R241) -/

theorem fpClass_of_nan {a : Word} (he : fpExp a = 255#8) (hf : fpFrac a ≠ 0#23) :
    fpClass a = if a.getLsbD 22 then 9 else 8 := by
  have hn : isNan a = true := by simp [isNan, he, hf]
  rw [fpClass, if_pos hn, isSignalling, hn, Bool.true_and]
  cases a.getLsbD 22 <;> rfl

theorem fpClass_of_inf {a : Word} (he : fpExp a = 255#8) (hf : fpFrac a = 0#23) :
    fpClass a = if fpSign a then 0 else 7 := by
  simp [fpClass, isNan, isInf, he, hf]

theorem fpClass_of_zero {a : Word} (he : fpExp a = 0#8) (hf : fpFrac a = 0#23) :
    fpClass a = if fpSign a then 3 else 4 := by
  simp [fpClass, isNan, isInf, isZero, he, hf]

theorem fpClass_of_denormal {a : Word} (he : fpExp a = 0#8) (hf : fpFrac a ≠ 0#23) :
    fpClass a = if fpSign a then 2 else 5 := by
  simp [fpClass, isNan, isInf, isZero, isDenormal, he, hf]

theorem fpClass_of_normal {a : Word} (h0 : fpExp a ≠ 0#8) (h1 : fpExp a ≠ 255#8) :
    fpClass a = if fpSign a then 1 else 6 := by
  simp [fpClass, isNan, isInf, isZero, isDenormal, h0, h1]

/-- Settles O43: by the exponent and the fraction a word is of one of five kinds, and its class then follows from one
bit. -/
theorem classBits : Obligations.ClassBits := by
  intro a
  have hninf : a = 0xFF800000 ↔ fpSign a = true ∧ fpExp a = 255 ∧ fpFrac a = 0 := eq_iff_fields a _
  have hpinf : a = 0x7F800000 ↔ fpSign a = false ∧ fpExp a = 255 ∧ fpFrac a = 0 := eq_iff_fields a _
  have hnzero : a = 0x80000000 ↔ fpSign a = true ∧ fpExp a = 0 ∧ fpFrac a = 0 := eq_iff_fields a _
  have hpzero : a = 0 ↔ fpSign a = false ∧ fpExp a = 0 ∧ fpFrac a = 0 := eq_iff_fields a _
  rw [hninf, hpinf, hnzero, hpzero]
  by_cases he : fpExp a = 255#8
  · by_cases hf : fpFrac a = 0#23
    · rw [fpClass_of_inf he hf]
      cases fpSign a <;> simp [he, hf]
    · rw [fpClass_of_nan he hf]
      cases a.getLsbD 22 <;> simp [he, hf]
  · by_cases h0 : fpExp a = 0#8
    · by_cases hf : fpFrac a = 0#23
      · rw [fpClass_of_zero h0 hf]
        cases fpSign a <;> simp [h0, hf]
      · rw [fpClass_of_denormal h0 hf]
        cases fpSign a <;> simp [h0, hf]
    · rw [fpClass_of_normal h0 he]
      cases fpSign a <;> simp [h0, he]

/-! ### Magnitudes rise with the low bits -/

/-- The magnitude that low bits stand for, in units of 2^-149. -/
def unitsOf (n : ℕ) : ℕ := if n < 2 ^ 23 then n else (2 ^ 23 + n % 2 ^ 23) * 2 ^ (n / 2 ^ 23 - 1)

theorem magnitude_eq (w : Word) : magnitude w = unitsOf (fpLow w) := by
  have hexp : fpExp w = 0 ↔ fpLow w < 2 ^ 23 := by
    rw [fpExp_eq_iff, show (0 : BitVec 8).toNat = 0 from rfl]
    omega
  rw [magnitude, unitsOf]
  by_cases h : fpLow w < 2 ^ 23
  · rw [if_pos (hexp.2 h), if_pos h, fpFrac_toNat, Nat.mod_eq_of_lt h]
  · rw [if_neg (mt hexp.1 h), if_neg h, fpFrac_toNat, fpExp_toNat]

/-- Low bits in terms of a significand `n` and a scale `j`: the exponent field is `j` more than the significand's own. -/
theorem unitsOf_add {j n : ℕ} (hj : j = 0 ∨ 2 ^ 23 ≤ n) (hn : n ≤ 2 ^ 24) :
    unitsOf (j * 2 ^ 23 + n) = n * 2 ^ j := by
  obtain hlt | hlo | rfl : n < 2 ^ 23 ∨ (2 ^ 23 ≤ n ∧ n < 2 ^ 24) ∨ n = 2 ^ 24 := by omega
  · obtain rfl : j = 0 := by omega
    rw [zero_mul, zero_add, unitsOf, if_pos hlt, pow_zero, mul_one]
  · rw [unitsOf, if_neg (by omega), show (j * 2 ^ 23 + n) / 2 ^ 23 - 1 = j by omega,
      show 2 ^ 23 + (j * 2 ^ 23 + n) % 2 ^ 23 = n by omega]
  · rw [unitsOf, if_neg (by omega), show (j * 2 ^ 23 + 2 ^ 24) / 2 ^ 23 - 1 = j + 1 by omega,
      show 2 ^ 23 + (j * 2 ^ 23 + 2 ^ 24) % 2 ^ 23 = 2 ^ 23 by omega, pow_succ]
    ring

/-- Every number is the low bits of a significand and a scale. -/
theorem exists_significand (N : ℕ) :
    ∃ j n, N = j * 2 ^ 23 + n ∧ (j = 0 ∨ 2 ^ 23 ≤ n) ∧ n < 2 ^ 24 :=
  ⟨N / 2 ^ 23 - 1, N - (N / 2 ^ 23 - 1) * 2 ^ 23, by omega, by omega, by omega⟩

theorem unitsOf_strictMono : StrictMono unitsOf := by
  refine strictMono_nat_of_lt_succ fun N => ?_
  obtain ⟨j, n, rfl, hj, hn⟩ := exists_significand N
  rw [add_assoc, unitsOf_add hj hn.le, unitsOf_add (hj.imp_right Nat.le_succ_of_le) hn]
  exact Nat.mul_lt_mul_of_pos_right n.lt_succ_self (Nat.two_pow_pos j)

theorem unitsOf_zero : unitsOf 0 = 0 := rfl

theorem unitsOf_infBits : unitsOf infBits = 2 ^ 24 * 2 ^ 253 := by
  rw [show infBits = 253 * 2 ^ 23 + 2 ^ 24 from rfl, unitsOf_add (.inr (by norm_num)) le_rfl]

theorem unitsOf_maxFinite : unitsOf (infBits - 1) = (2 ^ 24 - 1) * 2 ^ 253 := by
  rw [show infBits - 1 = 253 * 2 ^ 23 + (2 ^ 24 - 1) from rfl, unitsOf_add (.inr (by norm_num)) (by norm_num)]

theorem magnitude_eq_zero_iff (w : Word) : magnitude w = 0 ↔ isZero w = true := by
  rw [magnitude_eq, isZero_iff]
  exact unitsOf_strictMono.injective.eq_iff' unitsOf_zero

theorem magnitude_pos {w : Word} (h : isZero w = false) : 0 < magnitude w := by
  rw [Nat.pos_iff_ne_zero, ne_eq, magnitude_eq_zero_iff, h]
  exact Bool.false_ne_true

/-! ### The order of compares (R210, R233 to R235) -/

theorem fpInt_natAbs (w : Word) : (fpInt w).natAbs = magnitude w := by
  rw [fpInt]
  split_ifs <;> simp

theorem fpInt_eq_zero_iff (w : Word) : fpInt w = 0 ↔ isZero w = true := by
  rw [← Int.natAbs_eq_zero, fpInt_natAbs, magnitude_eq_zero_iff]

/-- Words of one sign with one value are one word. -/
theorem eq_of_fpInt_eq {a b : Word} (hs : fpSign a = fpSign b) (h : fpInt a = fpInt b) : a = b := by
  have hmag : magnitude a = magnitude b := by rw [← fpInt_natAbs, ← fpInt_natAbs, h]
  rw [magnitude_eq, magnitude_eq] at hmag
  exact word_ext hs (unitsOf_strictMono.injective hmag)

/-- Words of two signs with one value are the zeros. -/
theorem isZero_of_fpInt_eq {a b : Word} (hs : fpSign a ≠ fpSign b) (h : fpInt a = fpInt b) :
    isZero a = true ∧ isZero b = true := by
  rw [← magnitude_eq_zero_iff, ← magnitude_eq_zero_iff]
  unfold fpInt at h
  cases ha : fpSign a <;> cases hb : fpSign b <;> simp [ha, hb] at hs h <;> omega

theorem abs_fpInt_lt {w : Word} (h : isFinite w = true) : |fpInt w| < unitsOf infBits := by
  rw [Int.abs_eq_natAbs, fpInt_natAbs, magnitude_eq]
  exact Int.ofNat_lt.2 (unitsOf_strictMono ((isFinite_iff w).1 h))

/-- The sign of a number as a factor. -/
def signFactor (sign : Bool) : ℚ := if sign then -1 else 1

/-- A word's value by its sign and its low bits. -/
theorem fpVal_eq (w : Word) : fpVal w = signFactor (fpSign w) * (unitsOf (fpLow w) / 2 ^ 149) := by
  rw [fpVal, fpInt, magnitude_eq, signFactor]
  split_ifs <;> push_cast <;> ring

theorem fpInt_infinities :
    fpInt 0xFF800000 = -(unitsOf infBits : ℤ) ∧ fpInt 0x7F800000 = unitsOf infBits := by
  have hlow : fpLow 0xFF800000 = infBits ∧ fpLow 0x7F800000 = infBits := by decide
  rw [fpInt, fpInt, magnitude_eq, magnitude_eq, hlow.1, hlow.2]
  exact ⟨if_pos rfl, if_neg (by decide)⟩

/-- Settles O42: magnitudes rise strictly with the low bits, up to the infinities', and R210's formulas are the
magnitude's in units of 2^-149. -/
theorem compareOrder : Obligations.CompareOrder := by
  refine ⟨fun w hw => ?_, fun w v _ _ h => ?_, fun w he => ?_, fun w he _ => ?_⟩
  · rw [fpInt_infinities.1, fpInt_infinities.2]
    exact abs_lt.1 (abs_fpInt_lt hw)
  · by_cases hs : fpSign w = fpSign v
    · exact .inl (eq_of_fpInt_eq hs h)
    · exact .inr (isZero_of_fpInt_eq hs h)
  · rw [fpVal, fpInt, magnitude, if_pos he, zpow_neg, div_eq_mul_inv]
    split_ifs <;> push_cast <;> ring
  · have hpos : 1 ≤ (fpExp w).toNat := by
      rw [Nat.one_le_iff_ne_zero, ne_eq, ← BitVec.toNat_zero, BitVec.toNat_inj]
      exact he
    have hscale : (2 : ℚ) ^ (((fpExp w).toNat : ℤ) - 150) = 2 ^ ((fpExp w).toNat - 1) / 2 ^ 149 := by
      rw [← zpow_natCast, ← zpow_natCast, ← zpow_sub₀ two_ne_zero]
      congr 1
      omega
    rw [fpVal, fpInt, magnitude, if_neg he, hscale]
    split_ifs <;> push_cast <;> ring

/-! ### Minimum and maximum (R224, R225) -/

/-- The order of FMIN and FMAX is total: neither of two words is below the other only where they are one. -/
theorem eq_of_not_fpBelow {a b : Word} (hab : fpBelow a b = false) (hba : fpBelow b a = false) : a = b := by
  simp only [fpBelow, Bool.or_eq_false_iff, decide_eq_false_iff_not, Bool.and_eq_false_iff, not_lt] at hab hba
  have hint : fpInt a = fpInt b := le_antisymm hba.1 hab.1
  refine eq_of_fpInt_eq ?_ hint
  cases ha : fpSign a <;> cases hb : fpSign b <;> simp [ha, hb, hint] at hab hba ⊢

theorem fpBelow_asymm {a b : Word} (h : fpBelow a b = true) : fpBelow b a = false := by
  simp only [fpBelow, Bool.or_eq_true, decide_eq_true_eq, Bool.and_eq_true, Bool.not_eq_true'] at h
  obtain hlt | ⟨⟨heq, ha⟩, hb⟩ := h
  · simp [fpBelow, hlt.le, hlt.ne']
  · simp [fpBelow, heq, ha, hb]

theorem fpInt_le_of_fpBelow {a b : Word} (h : fpBelow a b = true) : fpInt a ≤ fpInt b := by
  simp only [fpBelow, Bool.or_eq_true, decide_eq_true_eq, Bool.and_eq_true, Bool.not_eq_true'] at h
  obtain hlt | ⟨⟨heq, -⟩, -⟩ := h
  · exact hlt.le
  · exact heq.le

/-- Of two operands that are no Nans, FMIN and FMAX give the one below the other and the other. -/
theorem fpMin_fpMax_of_fpBelow {a b : Word} (ha : isNan a = false) (hb : isNan b = false) (h : fpBelow a b = true) :
    (fpMin a b = a ∧ fpMax a b = b) ∧ fpMin b a = a ∧ fpMax b a = b := by
  simp [fpMin, fpMax, ha, hb, h, fpBelow_asymm h]

/-- Without Nans, FMIN and FMAX are the two operands, in order of value. -/
theorem fpMin_fpMax_cases {a b : Word} (ha : isNan a = false) (hb : isNan b = false) :
    (fpMin a b = a ∧ fpMax a b = b ∧ fpInt a ≤ fpInt b) ∨ (fpMin a b = b ∧ fpMax a b = a ∧ fpInt b ≤ fpInt a) := by
  cases hab : fpBelow a b
  · cases hba : fpBelow b a
    · obtain rfl := eq_of_not_fpBelow hab hba
      exact .inl ⟨by simp [fpMin, ha], by simp [fpMax, ha], le_rfl⟩
    · obtain ⟨-, hmin, hmax⟩ := fpMin_fpMax_of_fpBelow hb ha hba
      exact .inr ⟨hmin, hmax, fpInt_le_of_fpBelow hba⟩
  · obtain ⟨⟨hmin, hmax⟩, -⟩ := fpMin_fpMax_of_fpBelow ha hb hab
    exact .inl ⟨hmin, hmax, fpInt_le_of_fpBelow hab⟩

/-- Of the two zeros the negative one is below. -/
theorem fpBelow_zeros {a b : Word} (ha : isZero a = true) (hb : isZero b = true) (hsa : fpSign a = true)
    (hsb : fpSign b = false) : fpBelow a b = true := by
  simp [fpBelow, (fpInt_eq_zero_iff a).2 ha, (fpInt_eq_zero_iff b).2 hb, hsa, hsb]

/-- Zeros of two signs: -0 is the minimum, +0 the maximum. -/
theorem fpMin_fpMax_zeros {a b : Word} (ha : isZero a = true) (hb : isZero b = true) (hs : fpSign a ≠ fpSign b) :
    fpMin a b = 0x80000000 ∧ fpMax a b = 0 := by
  have hna := isNan_of_isFinite (isFinite_of_isZero ha)
  have hnb := isNan_of_isFinite (isFinite_of_isZero hb)
  cases hsa : fpSign a
  · have hsb : fpSign b = true := by simpa [hsa] using hs
    obtain ⟨-, hmin, hmax⟩ := fpMin_fpMax_of_fpBelow hnb hna (fpBelow_zeros hb ha hsb hsa)
    rw [hmin, hmax, eq_signedZero ha, eq_signedZero hb, hsa, hsb]
    exact ⟨rfl, rfl⟩
  · have hsb : fpSign b = false := by simpa [hsa] using hs
    obtain ⟨⟨hmin, hmax⟩, -⟩ := fpMin_fpMax_of_fpBelow hna hnb (fpBelow_zeros ha hb hsa hsb)
    rw [hmin, hmax, eq_signedZero ha, eq_signedZero hb, hsa, hsb]
    exact ⟨rfl, rfl⟩

/-- Settles O40: Nans are passed over first; without Nans, one operand is below the other or they are one word. -/
theorem minMaxMeaning : Obligations.MinMaxMeaning := by
  intro a b
  refine ⟨fun ha hb => ?_, fun ha hb => ?_, fun ha hb => ?_, fun ha hb => ⟨?_, ?_, fpMin_fpMax_zeros⟩⟩
  · simp [fpMin, fpMax, ha, hb, canonicalNan]
  · simp [fpMin, fpMax, ha, hb]
  · simp [fpMin, fpMax, ha, hb]
  · exact (fpMin_fpMax_cases ha hb).imp (fun ⟨hmin, hmax, _⟩ => ⟨hmin, hmax⟩) fun ⟨hmin, hmax, _⟩ => ⟨hmin, hmax⟩
  · obtain ⟨hmin, hmax, hle⟩ | ⟨hmin, hmax, hle⟩ := fpMin_fpMax_cases ha hb
    · rwa [hmin, hmax]
    · rwa [hmin, hmax]

end Sys2Proof.Machine
end

section
/-! What the arithmetic instructions deliver for Nans, infinities and zeros (spec/43_floating_point.md R211, R216, R226). -/

namespace Sys2Proof.Machine

/-! ### Delivered Nans (R211, log 21) -/

theorem isNan_nanOf (w : Word) : isNan (nanOf w) = true := by
  have hexp : fpExp (nanOf w) = 255#8 :=
    (extract_append_high _ _ 23 8 (by omega)).trans ((extract_append_low _ 255#8 0 8 (by omega)).trans (extract_all _))
  have hfrac : fpFrac (nanOf w) = if fpFrac w = 0 then 0x400000#23 else fpFrac w :=
    (extract_append_low _ _ 0 23 (by omega)).trans (extract_all _)
  have hne : fpFrac (nanOf w) ≠ 0#23 := by
    rw [hfrac]
    split_ifs with h
    · decide
    · exact h
  simp [isNan, hexp, hne]

/-- A result that is a Nan and not marked inexact. -/
def DeliversNan (r : Rounded) : Prop := isNan r.bits = true ∧ r.inexact = false

/-- A result that is a word and not marked inexact. -/
def DeliversExactly (r : Rounded) (v : Word) : Prop := r.bits = v ∧ r.inexact = false

theorem isNan_nanResult (op : FpOp) (a b : Word) : DeliversNan { bits := nanResult op a b } :=
  ⟨isNan_nanOf _, rfl⟩

/-! ### Sums and differences

A difference is the sum with the sign of the second operand flipped; `sb` is the sign it takes part with. -/

section
variable {op : FpOp} {m : Rounding} {a b : Word} {sb : Bool}

theorem ieeeAddSub_nan (h : isNan a = true ∨ isNan b = true) : DeliversNan (ieeeAddSub op m a b sb) := by
  rw [ieeeAddSub, if_pos (by simpa using h)]
  exact isNan_nanResult op a b

theorem ieeeAddSub_inf_inf (ha : isInf a = true) (hb : isInf b = true) :
    if fpSign a = sb then DeliversExactly (ieeeAddSub op m a b sb) a else DeliversNan (ieeeAddSub op m a b sb) := by
  have hn := isNan_of_isInf ha
  have hn' := isNan_of_isInf hb
  split_ifs with hs
  · subst hs
    simp [ieeeAddSub, DeliversExactly, ha, hb, hn, hn', ← eq_signedInf ha]
  · simpa [ieeeAddSub, ha, hb, hn, hn', hs] using isNan_nanResult op a b

theorem ieeeAddSub_inf_finite (ha : isInf a = true) (hb : isFinite b = true) :
    DeliversExactly (ieeeAddSub op m a b sb) a := by
  simp [ieeeAddSub, DeliversExactly, ha, isNan_of_isInf ha, isNan_of_isFinite hb, isInf_of_isFinite hb,
    ← eq_signedInf ha]

theorem ieeeAddSub_finite_inf (ha : isFinite a = true) (hb : isInf b = true) :
    DeliversExactly (ieeeAddSub op m a b sb) (signedInf sb) := by
  simp [ieeeAddSub, DeliversExactly, hb, isNan_of_isInf hb, isNan_of_isFinite ha, isInf_of_isFinite ha]

theorem ieeeAddSub_finite (ha : isFinite a = true) (hb : isFinite b = true) :
    ieeeAddSub op m a b sb =
      addFinite m (fpSign a) sb (fpInt a) (if sb then -(magnitude b : Int) else magnitude b) := by
  simp [ieeeAddSub, isNan_of_isFinite ha, isNan_of_isFinite hb, isInf_of_isFinite ha, isInf_of_isFinite hb]

end

theorem fpAdd_eq (m : Rounding) (a b : Word) : fpAdd m a b = ieeeAddSub .add m a b (fpSign b) := rfl

theorem fpSub_eq (m : Rounding) (a b : Word) : fpSub m a b = ieeeAddSub .sub m a b (!fpSign b) := rfl

/-! ### Products, quotients and square roots -/

section
variable {m : Rounding} {a b : Word}

theorem fpMul_nan (h : isNan a = true ∨ isNan b = true) : DeliversNan (fpMul m a b) := by
  rw [fpMul, arith_eq, ieeeMul, if_pos (by simpa using h)]
  exact isNan_nanResult .mul a b

theorem fpMul_inf_zero (h : (isInf a = true ∧ isZero b = true) ∨ (isZero a = true ∧ isInf b = true)) :
    DeliversNan (fpMul m a b) := by
  have hn : isNan a = false ∧ isNan b = false := by
    obtain ⟨ha, hb⟩ | ⟨ha, hb⟩ := h
    · exact ⟨isNan_of_isInf ha, isNan_of_isFinite (isFinite_of_isZero hb)⟩
    · exact ⟨isNan_of_isFinite (isFinite_of_isZero ha), isNan_of_isInf hb⟩
  rw [fpMul, arith_eq, ieeeMul, if_neg (by simp [hn]), if_pos (by simpa using h)]
  exact isNan_nanResult .mul a b

theorem fpMul_inf (ha : isNan a = false) (hb : isNan b = false)
    (h : (isInf a = true ∧ isZero b = false) ∨ (isZero a = false ∧ isInf b = true)) :
    DeliversExactly (fpMul m a b) (signedInf (fpSign a ^^ fpSign b)) := by
  obtain ⟨hi, hz⟩ | ⟨hz, hi⟩ := h
  · simp [fpMul, ieeeMul, DeliversExactly, ha, hb, hi, hz, isZero_of_isInf hi]
  · simp [fpMul, ieeeMul, DeliversExactly, ha, hb, hi, hz, isZero_of_isInf hi]

theorem fpMul_zero (ha : isFinite a = true) (hb : isFinite b = true) (h : isZero a = true ∨ isZero b = true) :
    DeliversExactly (fpMul m a b) (signedZero (fpSign a ^^ fpSign b)) := by
  simp [fpMul, ieeeMul, DeliversExactly, isNan_of_isFinite ha, isNan_of_isFinite hb, isInf_of_isFinite ha,
    isInf_of_isFinite hb, h]

theorem fpMul_finite (ha : isFinite a = true) (hb : isFinite b = true) (hza : isZero a = false)
    (hzb : isZero b = false) :
    fpMul m a b = roundFp m (fpSign a != fpSign b) (magnitude a * magnitude b) (2 ^ 298) := by
  simp only [fpMul, arith_eq, ieeeMul, isNan_of_isFinite ha, isNan_of_isFinite hb, isInf_of_isFinite ha,
    isInf_of_isFinite hb, hza, hzb, Bool.false_and, Bool.or_self, Bool.false_eq_true, if_false]

theorem fpDiv_nan (h : isNan a = true ∨ isNan b = true) : DeliversNan (fpDiv m a b) := by
  rw [fpDiv, arith_eq, ieeeDiv, if_pos (by simpa using h)]
  exact isNan_nanResult .div a b

theorem fpDiv_invalid (ha : isNan a = false) (hb : isNan b = false)
    (h : (isInf a = true ∧ isInf b = true) ∨ (isZero a = true ∧ isZero b = true)) : DeliversNan (fpDiv m a b) := by
  rw [fpDiv, arith_eq, ieeeDiv, if_neg (by simp [ha, hb]), if_pos (by simpa using h)]
  exact isNan_nanResult .div a b

theorem fpDiv_inf (ha : isNan a = false) (hb : isNan b = false)
    (h : (isInf a = true ∧ isInf b = false) ∨ (isZero a = false ∧ isZero b = true)) :
    DeliversExactly (fpDiv m a b) (signedInf (fpSign a ^^ fpSign b)) := by
  obtain ⟨hi, hf⟩ | ⟨hz, hz'⟩ := h
  · simp [fpDiv, ieeeDiv, DeliversExactly, ha, hb, hi, hf, isZero_of_isInf hi]
  · simp [fpDiv, ieeeDiv, DeliversExactly, ha, hb, hz, hz', isInf_of_isFinite (isFinite_of_isZero hz')]

theorem fpDiv_zero (ha : isFinite a = true) (hb : isNan b = false)
    (h : isInf b = true ∨ (isZero a = true ∧ isZero b = false)) :
    DeliversExactly (fpDiv m a b) (signedZero (fpSign a ^^ fpSign b)) := by
  have hzb : isZero b = false := h.elim isZero_of_isInf And.right
  rw [fpDiv, arith_eq, ieeeDiv, if_neg (by simp [isNan_of_isFinite ha, hb]),
    if_neg (by simp [isInf_of_isFinite ha, hzb]), if_neg (by simp [isInf_of_isFinite ha, hzb]),
    if_pos (by simpa [hzb, or_comm] using h)]
  simp [DeliversExactly]

theorem fpDiv_finite (ha : isFinite a = true) (hb : isFinite b = true) (hza : isZero a = false)
    (hzb : isZero b = false) :
    fpDiv m a b = roundFp m (fpSign a != fpSign b) (magnitude a) (magnitude b) := by
  simp only [fpDiv, arith_eq, ieeeDiv, isNan_of_isFinite ha, isNan_of_isFinite hb, isInf_of_isFinite ha,
    isInf_of_isFinite hb, hza, hzb, Bool.false_and, Bool.or_self, Bool.false_eq_true, if_false]

theorem fpSqrt_nan (h : isNan a = true) : DeliversNan (fpSqrt m a) := by
  rw [fpSqrt, arith_eq, ieeeSqrt, if_pos h]
  exact isNan_nanResult .sqrt a 0

theorem fpSqrt_zero (h : isZero a = true) : DeliversExactly (fpSqrt m a) a := by
  simp [fpSqrt, ieeeSqrt, DeliversExactly, isNan_of_isFinite (isFinite_of_isZero h), h]

theorem fpSqrt_negative (hz : isZero a = false) (hs : fpSign a = true) : DeliversNan (fpSqrt m a) := by
  cases hn : isNan a
  · simpa [fpSqrt, ieeeSqrt, hn, hz, hs] using isNan_nanResult .sqrt a 0
  · exact fpSqrt_nan hn

theorem fpSqrt_inf (h : isInf a = true) (hs : fpSign a = false) : DeliversExactly (fpSqrt m a) a := by
  simp [fpSqrt, ieeeSqrt, DeliversExactly, isNan_of_isInf h, isZero_of_isInf h, h, hs]

theorem fpSqrt_finite (hf : isFinite a = true) (hz : isZero a = false) (hs : fpSign a = false) :
    fpSqrt m a = sqrtFinite m (magnitude a) := by
  simp only [fpSqrt, arith_eq, ieeeSqrt, isNan_of_isFinite hf, hz, hs, isInf_of_isFinite hf, Bool.false_eq_true, if_false]

end

/-- Settles O28: the test for a Nan operand comes first in every operation. -/
theorem nanInNanOut : Obligations.NanInNanOut := by
  intro m a b h
  have hadd : DeliversNan (fpAdd m a b) := ieeeAddSub_nan h
  have hsub : DeliversNan (fpSub m a b) := ieeeAddSub_nan h
  exact ⟨hadd.1, hsub.1, (fpMul_nan h).1, (fpDiv_nan h).1, fun ha => (fpSqrt_nan ha).1, hadd.2, hsub.2,
    (fpMul_nan h).2, (fpDiv_nan h).2, fun ha => (fpSqrt_nan ha).2⟩

/-! ### No special result is inexact (R215, log 22) -/

section
variable {m : Rounding} {a b : Word}

theorem ieeeAddSub_inf_exact {op : FpOp} {sb : Bool} (ha : isNan a = false) (hb : isNan b = false)
    (h : isInf a = true ∨ isInf b = true) : (ieeeAddSub op m a b sb).inexact = false := by
  obtain hfa | hia := isFinite_or_isInf ha
  · exact (ieeeAddSub_finite_inf hfa (h.resolve_left (by simp [isInf_of_isFinite hfa]))).2
  · obtain hfb | hib := isFinite_or_isInf hb
    · exact (ieeeAddSub_inf_finite hia hfb).2
    · have hboth := ieeeAddSub_inf_inf (op := op) (m := m) (sb := sb) hia hib
      split_ifs at hboth
      · exact hboth.2
      · exact hboth.2

theorem fpMul_special_exact (ha : isNan a = false) (hb : isNan b = false)
    (h : isInf a = true ∨ isInf b = true ∨ isZero a = true ∨ isZero b = true) : (fpMul m a b).inexact = false := by
  obtain hfa | hia := isFinite_or_isInf ha
  · obtain hfb | hib := isFinite_or_isInf hb
    · exact (fpMul_zero hfa hfb (by simpa [isInf_of_isFinite hfa, isInf_of_isFinite hfb] using h)).2
    · cases hza : isZero a
      · exact (fpMul_inf ha hb (.inr ⟨hza, hib⟩)).2
      · exact (fpMul_inf_zero (.inr ⟨hza, hib⟩)).2
  · cases hzb : isZero b
    · exact (fpMul_inf ha hb (.inl ⟨hia, hzb⟩)).2
    · exact (fpMul_inf_zero (.inl ⟨hia, hzb⟩)).2

theorem fpDiv_special_exact (ha : isNan a = false) (hb : isNan b = false)
    (h : isInf a = true ∨ isInf b = true ∨ isZero a = true ∨ isZero b = true) : (fpDiv m a b).inexact = false := by
  obtain hfa | hia := isFinite_or_isInf ha
  · cases hib : isInf b
    · cases hzb : isZero b
      · have hza : isZero a = true := by simpa [isInf_of_isFinite hfa, hib, hzb] using h
        exact (fpDiv_zero hfa hb (.inr ⟨hza, hzb⟩)).2
      · cases hza : isZero a
        · exact (fpDiv_inf ha hb (.inr ⟨hza, hzb⟩)).2
        · exact (fpDiv_invalid ha hb (.inr ⟨hza, hzb⟩)).2
    · exact (fpDiv_zero hfa hb (.inl hib)).2
  · cases hib : isInf b
    · exact (fpDiv_inf ha hb (.inl ⟨hia, hib⟩)).2
    · exact (fpDiv_invalid ha hb (.inl ⟨hia, hib⟩)).2

theorem fpSqrt_special_exact (h : isInf a = true ∨ isZero a = true ∨ fpSign a = true) :
    (fpSqrt m a).inexact = false := by
  cases hz : isZero a
  · cases hs : fpSign a
    · exact (fpSqrt_inf (by simpa [hz, hs] using h) hs).2
    · exact (fpSqrt_negative hz hs).2
  · exact (fpSqrt_zero hz).2

end

/-- Settles O29: each clause is the result of the one branch its operands take. -/
theorem specialOperands : Obligations.SpecialOperands := by
  intro m a b ha hb
  refine ⟨fun hia hib => ⟨?_, (fpDiv_invalid ha hb (.inl ⟨hia, hib⟩)).1⟩,
    fun hia hfb => ⟨(ieeeAddSub_inf_finite hia hfb).1, (ieeeAddSub_inf_finite hia hfb).1,
      (fpDiv_inf ha hb (.inl ⟨hia, isInf_of_isFinite hfb⟩)).1⟩,
    fun hfa hib => ⟨?_, (ieeeAddSub_finite_inf hfa hib).1, (fpDiv_zero hfa hb (.inl hib)).1⟩,
    fun h => (fpMul_inf_zero h).1, fun h => (fpMul_inf ha hb h).1,
    fun hza hzb => (fpDiv_invalid ha hb (.inr ⟨hza, hzb⟩)).1,
    fun _ hza hzb => (fpDiv_inf ha hb (.inr ⟨hza, hzb⟩)).1, fun hfa hfb h => (fpMul_zero hfa hfb h).1,
    fun hza _ hzb => (fpDiv_zero (isFinite_of_isZero hza) hb (.inr ⟨hza, hzb⟩)).1, fun hza => (fpSqrt_zero hza).1,
    fun hia hs => (fpSqrt_inf hia hs).1, fun hza hs => (fpSqrt_negative hza hs).1,
    fun h => ⟨ieeeAddSub_inf_exact ha hb h, ieeeAddSub_inf_exact ha hb h⟩,
    fun h => ⟨fpMul_special_exact ha hb h, fpDiv_special_exact ha hb h⟩, fpSqrt_special_exact⟩
  · have hadd := ieeeAddSub_inf_inf (op := .add) (m := m) (sb := fpSign b) hia hib
    have hsub := ieeeAddSub_inf_inf (op := .sub) (m := m) (sb := !fpSign b) hia hib
    rw [fpAdd_eq, fpSub_eq]
    split_ifs with hs
    · rw [if_pos hs] at hadd
      rw [if_neg (by simp [hs])] at hsub
      exact ⟨hadd.1, hsub.1⟩
    · rw [if_neg hs] at hadd
      rw [if_pos (by simpa [Bool.eq_not] using hs)] at hsub
      exact ⟨hadd.1, hsub.1⟩
  · exact (ieeeAddSub_finite_inf hfa hib).1.trans (eq_signedInf hib).symm

end Sys2Proof.Machine
end

section
/-! Rounding to the points of a rising grid (spec/43_floating_point.md R212): the whole numbers for conversions to integer,
the magnitudes of single precision for arithmetic. The numbers rounded are magnitudes; a sign only turns the directed
modes round. -/

namespace Sys2Proof.Machine

/-! ### Comparing with a point -/

section
variable {K : Type*} [LinearOrder K]

/-- Two numbers lie on the same side of a third. -/
def SameSide (x y c : K) : Prop := (c ≤ x ↔ c ≤ y) ∧ (x ≤ c ↔ y ≤ c)

theorem SameSide.lt_iff {x y c : K} (h : SameSide x y c) : x < c ↔ y < c := by
  rw [← not_le, h.1, not_le]

theorem SameSide.gt_iff {x y c : K} (h : SameSide x y c) : c < x ↔ c < y := by
  rw [← not_le, h.2, not_le]

theorem SameSide.eq_iff {x y c : K} (h : SameSide x y c) : x = c ↔ y = c := by
  rw [le_antisymm_iff, le_antisymm_iff, h.1, h.2]

end

/-! ### Modes and grids -/

section
variable {K : Type*} [Field K] [LinearOrder K]

/-- Whether a mode goes up from the grid point `lo` of index `n` to the next one, `hi`, for a magnitude `x` with
`lo ≤ x < hi`. -/
def GoesUp (m : Rounding) (sign : Bool) (n : ℕ) (lo hi x : K) : Prop :=
  match m with
  | .rne => lo + hi < 2 * x ∨ (2 * x = lo + hi ∧ n % 2 = 1)
  | .rtz => False
  | .rdn => sign = true ∧ x ≠ lo
  | .rup => sign = false ∧ x ≠ lo
  | .rmm => lo + hi ≤ 2 * x

/-- `b` is the index of the point of the grid `g` to which the magnitude `x` is rounded. -/
def RoundsOn (g : ℕ → ℕ) (m : Rounding) (sign : Bool) (x : K) (b : ℕ) : Prop :=
  ∃ lo : ℕ, (g lo : K) ≤ x ∧ x < g (lo + 1) ∧
    ((GoesUp m sign lo (g lo : K) (g (lo + 1)) x ∧ b = lo + 1) ∨
      (¬ GoesUp m sign lo (g lo : K) (g (lo + 1)) x ∧ b = lo))

/-- A mode that never goes up for this sign: toward zero, or the directed mode of the other side. -/
def TowardZero (m : Rounding) (sign : Bool) : Prop :=
  m = .rtz ∨ (m = .rdn ∧ sign = false) ∨ (m = .rup ∧ sign = true)

/-- A mode that always goes up for this sign, unless the magnitude is a grid point. -/
def AwayFromZero (m : Rounding) (sign : Bool) : Prop :=
  (m = .rdn ∧ sign = true) ∨ (m = .rup ∧ sign = false)

/-! ### Which way a mode goes -/

section
variable {m : Rounding} {sign : Bool} {n : ℕ} {lo hi x : K}

theorem not_goesUp_of_towardZero (h : TowardZero m sign) : ¬ GoesUp m sign n lo hi x := by
  obtain rfl | ⟨rfl, rfl⟩ | ⟨rfl, rfl⟩ := h <;> simp [GoesUp]

theorem goesUp_iff_of_awayFromZero (h : AwayFromZero m sign) : GoesUp m sign n lo hi x ↔ x ≠ lo := by
  obtain ⟨rfl, rfl⟩ | ⟨rfl, rfl⟩ := h <;> simp [GoesUp]

/-- A mode to nearest goes up only from the midpoint on, and from above the midpoint it does. -/
theorem midpoint_le_of_goesUp (h : m = .rne ∨ m = .rmm) (hup : GoesUp m sign n lo hi x) : lo + hi ≤ 2 * x := by
  obtain rfl | rfl := h
  · obtain hlt | ⟨heq, -⟩ := hup
    · exact hlt.le
    · exact heq.ge
  · exact hup

theorem le_midpoint_of_not_goesUp (h : m = .rne ∨ m = .rmm) (hup : ¬ GoesUp m sign n lo hi x) : 2 * x ≤ lo + hi := by
  obtain rfl | rfl := h
  · exact not_lt.1 fun hlt => hup (.inl hlt)
  · exact (not_le.1 hup).le

/-- The mode looks only at how the number compares with the point below and with the midpoint. -/
theorem goesUp_congr {y : K} (hlo : SameSide x y lo)
    (hmid : SameSide (2 * x) (2 * y) (lo + hi)) : GoesUp m sign n lo hi x ↔ GoesUp m sign n lo hi y := by
  cases m with
  | rne => simp only [GoesUp, hmid.gt_iff, hmid.eq_iff]
  | rtz => rfl
  | rdn | rup => simp only [GoesUp, ne_eq, hlo.eq_iff]
  | rmm => simp only [GoesUp, hmid.1]

variable [IsStrictOrderedRing K]

/-- No mode leaves a grid point. -/
theorem not_goesUp_self (hlt : lo < hi) : ¬ GoesUp m sign n lo hi lo := by
  cases m with
  | rne => rintro (h | ⟨h, -⟩) <;> linarith
  | rtz => exact id
  | rdn => exact fun h => h.2 rfl
  | rup => exact fun h => h.2 rfl
  | rmm => exact fun h => absurd hlt (not_lt.2 (by simpa [GoesUp, two_mul] using h))

/-- Only the parity of the index and the places in proportion matter. -/
theorem goesUp_scale {n' : ℕ} {c : K} (hc : 0 < c) (hn : n % 2 = n' % 2) :
    GoesUp m sign n (lo * c) (hi * c) (x * c) ↔ GoesUp m sign n' lo hi x := by
  have hsum : lo * c + hi * c = (lo + hi) * c := (add_mul lo hi c).symm
  have htwice : 2 * (x * c) = 2 * x * c := (mul_assoc 2 x c).symm
  have hinj : Function.Injective (· * c : K → K) := mul_left_injective₀ hc.ne'
  cases m with
  | rne => simp only [GoesUp, hsum, htwice, mul_lt_mul_iff_of_pos_right hc, hinj.eq_iff, hn]
  | rtz => rfl
  | rdn | rup => simp only [GoesUp, ne_eq, hinj.eq_iff]
  | rmm => simp only [GoesUp, hsum, htwice, mul_le_mul_iff_of_pos_right hc]

end

variable [IsStrictOrderedRing K]

/-! ### Rounding a quotient of natural numbers -/

theorem natCast_div_eq {p q : ℕ} (hq : 0 < q) : (p : K) / q = (p / q : ℕ) + (p % q : ℕ) / q := by
  have hq' : (q : K) ≠ 0 := Nat.cast_ne_zero.2 hq.ne'
  rw [div_eq_iff hq', add_mul, div_mul_cancel₀ _ hq', ← Nat.cast_mul, ← Nat.cast_add, Nat.div_add_mod']

theorem floor_le_natCast_div {p q : ℕ} (hq : 0 < q) :
    ((p / q : ℕ) : K) ≤ p / q ∧ (p : K) / q < (p / q : ℕ) + 1 := by
  have hq' : (0 : K) < q := Nat.cast_pos.2 hq
  rw [natCast_div_eq hq]
  exact ⟨le_add_of_nonneg_right (by positivity),
    add_lt_add_right ((div_lt_one hq').2 (Nat.cast_lt.2 (Nat.mod_lt p hq))) _⟩

/-- The remainder is zero exactly for a whole quotient. -/
theorem mod_eq_zero_iff {p q : ℕ} (hq : 0 < q) : p % q = 0 ↔ (p : K) / q = (p / q : ℕ) := by
  have hq' : (q : K) ≠ 0 := Nat.cast_ne_zero.2 hq.ne'
  rw [natCast_div_eq hq, add_eq_left, div_eq_zero_iff, or_iff_left hq', Nat.cast_eq_zero]

/-- The model's test on the remainder is the test on the number. -/
theorem roundsUp_iff {p q : ℕ} (hq : 0 < q) (m : Rounding) (sign : Bool) :
    roundsUp m sign (p / q) (p % q) q = true ↔
      GoesUp m sign (p / q) ((p / q : ℕ) : K) ((p / q : ℕ) + 1) ((p : K) / q) := by
  have hq' : (0 : K) < q := Nat.cast_pos.2 hq
  have htwice : 2 * ((p : K) / q) = (p / q : ℕ) + (p / q : ℕ) + 2 * (p % q : ℕ) / q := by
    rw [natCast_div_eq hq]
    ring
  have hlt : (p / q : ℕ) + ((p / q : ℕ) + 1) < 2 * ((p : K) / q) ↔ q < 2 * (p % q) := by
    rw [htwice, ← add_assoc, add_lt_add_iff_left, one_lt_div hq']
    norm_cast
  have heq : 2 * ((p : K) / q) = (p / q : ℕ) + ((p / q : ℕ) + 1) ↔ 2 * (p % q) = q := by
    rw [htwice, ← add_assoc, add_right_inj, div_eq_one_iff_eq hq'.ne']
    norm_cast
  have hle : (p / q : ℕ) + ((p / q : ℕ) + 1) ≤ 2 * ((p : K) / q) ↔ q ≤ 2 * (p % q) := by
    rw [htwice, ← add_assoc, add_le_add_iff_left, one_le_div hq']
    norm_cast
  cases m with
  | rne => simp only [GoesUp, hlt, heq, roundsUp, Bool.or_eq_true, Bool.and_eq_true, decide_eq_true_eq]
  | rtz => simp [GoesUp, roundsUp]
  | rdn | rup => simp [GoesUp, roundsUp, mod_eq_zero_iff (K := K) hq]
  | rmm => simp only [GoesUp, hle, roundsUp, decide_eq_true_eq]

/-- A quotient is rounded to a whole number as its place between two whole numbers says. -/
theorem roundQuotient_cases {p q : ℕ} (hq : 0 < q) (m : Rounding) (sign : Bool) :
    (GoesUp m sign (p / q) ((p / q : ℕ) : K) ((p / q : ℕ) + 1) ((p : K) / q) ∧
        roundQuotient m sign p q = p / q + 1) ∨
      (¬ GoesUp m sign (p / q) ((p / q : ℕ) : K) ((p / q : ℕ) + 1) ((p : K) / q) ∧
        roundQuotient m sign p q = p / q) := by
  rw [← roundsUp_iff hq, roundQuotient]
  split_ifs with h
  · exact .inl ⟨h, rfl⟩
  · exact .inr ⟨h, rfl⟩

/-! ### The point to which a number is rounded -/

namespace RoundsOn
variable {g : ℕ → ℕ} {m : Rounding} {sign : Bool} {x : K} {b : ℕ}

theorem cast_le_iff (hg : StrictMono g) {i j : ℕ} : (g i : K) ≤ g j ↔ i ≤ j := by
  rw [Nat.cast_le, hg.le_iff_le]

theorem cast_lt_iff (hg : StrictMono g) {i j : ℕ} : (g i : K) < g j ↔ i < j := by
  rw [Nat.cast_lt, hg.lt_iff_lt]

/-- The points not above a number are those up to the one below it. -/
theorem le_iff_of_between (hg : StrictMono g) {lo : ℕ} (hlo : (g lo : K) ≤ x) (hhi : x < g (lo + 1)) (N : ℕ) :
    (g N : K) ≤ x ↔ N ≤ lo :=
  ⟨fun h => Nat.lt_succ_iff.1 ((cast_lt_iff hg).1 (h.trans_lt hhi)), fun h => ((cast_le_iff hg).2 h).trans hlo⟩

/-- Toward zero: the greatest point not above. -/
theorem le_iff (h : RoundsOn g m sign x b) (hg : StrictMono g) (hm : TowardZero m sign) (N : ℕ) :
    (g N : K) ≤ x ↔ N ≤ b := by
  obtain ⟨lo, hlo, hhi, ⟨hup, -⟩ | ⟨-, rfl⟩⟩ := h
  · exact absurd hup (not_goesUp_of_towardZero hm)
  · exact le_iff_of_between hg hlo hhi N

/-- Away from zero: the least point not below. -/
theorem ge_iff (h : RoundsOn g m sign x b) (hg : StrictMono g) (hm : AwayFromZero m sign) (N : ℕ) :
    x ≤ g N ↔ b ≤ N := by
  obtain ⟨lo, hlo, hhi, ⟨hup, rfl⟩ | ⟨hup, rfl⟩⟩ := h
  · have hlt : (g lo : K) < x := lt_of_le_of_ne hlo ((goesUp_iff_of_awayFromZero hm).1 hup).symm
    exact ⟨fun hN => (cast_lt_iff hg).1 (hlt.trans_le hN), fun hN => hhi.le.trans ((cast_le_iff hg).2 hN)⟩
  · have heq : x = g b := not_not.1 (mt (goesUp_iff_of_awayFromZero hm).2 hup)
    rw [heq, cast_le_iff hg]

/-- A grid point is rounded to itself. -/
theorem eq_of_cast_eq (h : RoundsOn g m sign x b) (hg : StrictMono g) {N : ℕ} (hN : (g N : K) = x) : b = N := by
  obtain ⟨lo, hlo, hhi, hb⟩ := h
  subst hN
  obtain rfl : N = lo := le_antisymm ((le_iff_of_between hg hlo hhi N).1 le_rfl) ((cast_le_iff hg).1 hlo)
  obtain ⟨hup, -⟩ | ⟨-, rfl⟩ := hb
  · exact absurd hup (not_goesUp_self hhi)
  · rfl

/-- The rounding is the number itself exactly where the point below is. -/
theorem cast_eq_iff (h : RoundsOn g m sign x b) (hg : StrictMono g) {lo : ℕ} (hlo : (g lo : K) ≤ x)
    (hhi : x < g (lo + 1)) : (g b : K) = x ↔ (g lo : K) = x := by
  refine ⟨fun hb => ?_, fun he => by rw [h.eq_of_cast_eq hg he, he]⟩
  obtain rfl : b = lo := le_antisymm ((le_iff_of_between hg hlo hhi b).1 hb.le)
    ((cast_le_iff hg (K := K)).1 (hlo.trans hb.ge))
  exact hb

/-- To nearest: no point is nearer. -/
theorem abs_sub_le (h : RoundsOn g m sign x b) (hg : StrictMono g) (hm : m = .rne ∨ m = .rmm) (N : ℕ) :
    |(g b : K) - x| ≤ |(g N : K) - x| := by
  obtain ⟨lo, hlo, hhi, ⟨hup, rfl⟩ | ⟨hup, rfl⟩⟩ := h
  · have hmid := midpoint_le_of_goesUp hm hup
    rw [abs_of_nonneg (sub_nonneg.2 hhi.le)]
    obtain hN | hN := Nat.lt_or_ge lo N
    · have : (g (lo + 1) : K) ≤ g N := (cast_le_iff hg).2 hN
      exact le_trans (by linarith) (le_abs_self _)
    · have : (g N : K) ≤ g lo := (cast_le_iff hg).2 hN
      exact le_trans (by linarith) (neg_le_abs _)
  · have hmid := le_midpoint_of_not_goesUp hm hup
    rw [abs_of_nonpos (sub_nonpos.2 hlo)]
    obtain hN | hN := Nat.lt_or_ge b N
    · have : (g (b + 1) : K) ≤ g N := (cast_le_iff hg).2 hN
      exact le_trans (by linarith) (le_abs_self _)
    · have : (g N : K) ≤ g b := (cast_le_iff hg).2 hN
      exact le_trans (by linarith) (neg_le_abs _)

/-- To nearest: another point is as near only at the midpoint of two neighbours, where the mode has chosen. -/
theorem tie_cases (h : RoundsOn g m sign x b) (hg : StrictMono g) (hm : m = .rne ∨ m = .rmm) {N : ℕ} (hne : N ≠ b)
    (htie : |(g N : K) - x| ≤ |(g b : K) - x|) :
    ∃ lo : ℕ, 2 * x = (g lo : K) + g (lo + 1) ∧
      ((N < b ∧ b = lo + 1 ∧ GoesUp m sign lo (g lo : K) (g (lo + 1)) x) ∨
        (b = lo ∧ ¬ GoesUp m sign lo (g lo : K) (g (lo + 1)) x)) := by
  obtain ⟨lo, hlo, hhi, ⟨hup, rfl⟩ | ⟨hup, rfl⟩⟩ := h
  · have hmid := midpoint_le_of_goesUp hm hup
    rw [abs_of_pos (sub_pos.2 hhi)] at htie
    have hNx : (g N : K) ≤ x := by
      refine not_lt.1 fun hlt => hne ?_
      rw [abs_of_pos (sub_pos.2 hlt), sub_le_sub_iff_right, cast_le_iff hg] at htie
      exact le_antisymm htie (Nat.lt_of_not_le fun hN => not_lt.2 (((cast_le_iff hg).2 hN).trans hlo) hlt)
    have hN : N ≤ lo := (le_iff_of_between hg hlo hhi N).1 hNx
    have hNlo : (g N : K) ≤ g lo := (cast_le_iff hg).2 hN
    rw [abs_of_nonpos (sub_nonpos.2 hNx)] at htie
    exact ⟨lo, by linarith, .inl ⟨Nat.lt_succ_of_le hN, rfl, hup⟩⟩
  · have hmid := le_midpoint_of_not_goesUp hm hup
    rw [abs_of_nonpos (sub_nonpos.2 hlo)] at htie
    have hxN : x < g N := by
      refine not_le.1 fun hle => hne ?_
      rw [abs_of_nonpos (sub_nonpos.2 hle), neg_le_neg_iff, sub_le_sub_iff_right, cast_le_iff hg] at htie
      exact le_antisymm ((le_iff_of_between hg hlo hhi N).1 hle) htie
    have hNhi : (g (b + 1) : K) ≤ g N := (cast_le_iff hg).2 ((cast_lt_iff hg).1 (hlo.trans_lt hxN))
    rw [abs_of_pos (sub_pos.2 hxN)] at htie
    exact ⟨b, by linarith, .inr ⟨rfl, hup⟩⟩

/-- A tie goes to the even index under RNE. -/
theorem even_of_tie (h : RoundsOn g .rne sign x b) (hg : StrictMono g) {N : ℕ} (hne : N ≠ b)
    (htie : |(g N : K) - x| ≤ |(g b : K) - x|) : b % 2 = 0 := by
  obtain ⟨lo, hmid, ⟨-, rfl, hup⟩ | ⟨rfl, hup⟩⟩ := h.tie_cases hg (.inl rfl) hne htie
  · obtain hlt | ⟨-, hodd⟩ := hup
    · exact absurd hmid hlt.ne'
    · omega
  · exact Nat.mod_two_ne_one.1 fun hodd => hup (.inr ⟨hmid, hodd⟩)

/-- A tie goes to the larger magnitude under RMM. -/
theorem lt_of_tie (h : RoundsOn g .rmm sign x b) (hg : StrictMono g) {N : ℕ} (hne : N ≠ b)
    (htie : |(g N : K) - x| ≤ |(g b : K) - x|) : N < b := by
  obtain ⟨lo, hmid, ⟨hlt, -, -⟩ | ⟨-, hup⟩⟩ := h.tie_cases hg (.inr rfl) hne htie
  · exact hlt
  · exact absurd hmid.ge hup

/-- To nearest: a number reaches the point after one of odd index from the midpoint on. -/
theorem le_odd_iff (h : RoundsOn g m sign x b) (hg : StrictMono g) (hm : m = .rne ∨ m = .rmm) {N : ℕ}
    (hodd : N % 2 = 1) : b ≤ N ↔ 2 * x < (g N : K) + g (N + 1) := by
  have hstep : (g N : K) < g (N + 1) := (cast_lt_iff hg).2 N.lt_succ_self
  obtain ⟨lo, hlo, hhi, hb⟩ := h
  obtain hN | rfl | hN := lt_trichotomy lo N
  · have hx : x < g N := hhi.trans_le ((cast_le_iff hg).2 hN)
    have hbN : b ≤ N := by
      obtain ⟨-, rfl⟩ | ⟨-, rfl⟩ := hb <;> omega
    exact iff_of_true hbN (by linarith)
  · obtain ⟨hup, rfl⟩ | ⟨hup, rfl⟩ := hb
    · exact iff_of_false (by omega) (not_lt.2 (midpoint_le_of_goesUp hm hup))
    · refine iff_of_true le_rfl (lt_of_le_of_ne (le_midpoint_of_not_goesUp hm hup) fun hmid => hup ?_)
      obtain rfl | rfl := hm
      · exact .inr ⟨hmid, hodd⟩
      · exact hmid.ge
  · have hx : (g (N + 1) : K) ≤ x := le_trans ((cast_le_iff hg).2 hN) hlo
    have hbN : ¬ b ≤ N := by
      obtain ⟨-, rfl⟩ | ⟨-, rfl⟩ := hb <;> omega
    exact iff_of_false hbN (by linarith)

/-- A number that is not above a point is rounded to no point above it. -/
theorem le_of_le (h : RoundsOn g m sign x b) (hg : StrictMono g) {N : ℕ} (hN : x ≤ g N) : b ≤ N := by
  obtain rfl | hlt := hN.eq_or_lt
  · exact (h.eq_of_cast_eq hg rfl).le
  · obtain ⟨lo, hlo, -, hb⟩ := h
    have hloN : lo < N := (cast_lt_iff hg).1 (hlo.trans_lt hlt)
    obtain ⟨-, rfl⟩ | ⟨-, rfl⟩ := hb <;> omega

/-- Numbers that compare alike with the two neighbours and their midpoint are rounded alike. -/
theorem congr {y : K} (h : RoundsOn g m sign x b) (hg : StrictMono g)
    (hsame : ∀ lo : ℕ, (g lo : K) ≤ x → x < g (lo + 1) → SameSide x y (g lo) ∧ SameSide x y (g (lo + 1)) ∧
      SameSide (2 * x) (2 * y) (g lo + g (lo + 1))) :
    RoundsOn g m sign y b ∧ ((g b : K) = x ↔ (g b : K) = y) := by
  obtain ⟨lo, hlo, hhi, hb⟩ := id h
  obtain ⟨hslo, hshi, hsmid⟩ := hsame lo hlo hhi
  have hlo' : (g lo : K) ≤ y := hslo.1.1 hlo
  have hhi' : y < g (lo + 1) := hshi.lt_iff.1 hhi
  have hy : RoundsOn g m sign y b := ⟨lo, hlo', hhi', by rwa [← goesUp_congr hslo hsmid]⟩
  refine ⟨hy, ?_⟩
  rw [h.cast_eq_iff hg hlo hhi, hy.cast_eq_iff hg hlo' hhi', eq_comm, hslo.eq_iff, eq_comm]

end RoundsOn

/-! ### The whole numbers as a grid -/

theorem roundsOn_roundQuotient {p q : ℕ} (hq : 0 < q) (m : Rounding) (sign : Bool) :
    RoundsOn id m sign ((p : K) / q) (roundQuotient m sign p q) := by
  obtain ⟨hlo, hhi⟩ := floor_le_natCast_div (K := K) (p := p) hq
  refine ⟨p / q, hlo, by simpa using hhi, ?_⟩
  simpa using roundQuotient_cases (K := K) (p := p) hq m sign

/-- A quotient is its own rounding where it leaves no remainder. -/
theorem cast_roundQuotient_eq_iff {p q : ℕ} (hq : 0 < q) (m : Rounding) (sign : Bool) :
    (roundQuotient m sign p q : K) = p / q ↔ p % q = 0 := by
  obtain ⟨hlo, hhi⟩ := floor_le_natCast_div (K := K) (p := p) hq
  rw [mod_eq_zero_iff (K := K) hq, eq_comm (a := (p : K) / q)]
  exact (roundsOn_roundQuotient hq m sign).cast_eq_iff strictMono_id hlo (by simpa using hhi)

end

end Sys2Proof.Machine
end

section
/-! The rounding function (spec/43_floating_point.md R212, R216): the low bits that it delivers are those of the magnitude
to which the exact one is rounded, in units of 2^-149. -/

namespace Sys2Proof.Machine

section
variable {K : Type*} [Field K] [LinearOrder K] [IsStrictOrderedRing K]

/-! ### The exponent -/

/-- The model's two natural-number scales are one power of two. -/
theorem scaled_div (p q : ℕ) (u : ℤ) :
    ((p * 2 ^ (-u).toNat : ℕ) : K) / (q * 2 ^ u.toNat : ℕ) = (p : K) / q / 2 ^ u := by
  have hpow : (2 : K) ^ u = 2 ^ u.toNat / 2 ^ (-u).toNat := by
    obtain ⟨n, rfl | rfl⟩ := u.eq_nat_or_neg <;> simp
  rw [hpow]
  push_cast
  field_simp

/-- The model's exponent is the binary logarithm, rounded down. -/
theorem log2Quotient_spec {p q : ℕ} (hp : 0 < p) (hq : 0 < q) :
    (2 : K) ^ log2Quotient p q ≤ p / q ∧ (p : K) / q < 2 ^ (log2Quotient p q + 1) := by
  have hq' : (0 : K) < q := Nat.cast_pos.2 hq
  have htest : q * 2 ^ ((p.log2 : ℤ) - q.log2).toNat ≤ p * 2 ^ (-((p.log2 : ℤ) - q.log2)).toNat ↔
      (2 : K) ^ ((p.log2 : ℤ) - q.log2) ≤ p / q := by
    rw [← one_le_div₀ (zpow_pos two_pos _), ← scaled_div, one_le_div₀ (by positivity), Nat.cast_le]
  have hlo : (2 : K) ^ ((p.log2 : ℤ) - q.log2 - 1) ≤ p / q := by
    have hpow : (2 : K) ^ ((p.log2 : ℤ) - q.log2 - 1) = 2 ^ p.log2 / 2 ^ (q.log2 + 1) := by
      rw [← zpow_natCast, ← zpow_natCast, ← zpow_sub₀ two_ne_zero]
      congr 1
      omega
    rw [hpow]
    exact div_le_div₀ p.cast_nonneg (by exact_mod_cast Nat.log2_self_le hp.ne') hq'
      (by exact_mod_cast Nat.lt_log2_self.le)
  have hhi : (p : K) / q < 2 ^ ((p.log2 : ℤ) - q.log2 + 1) := by
    have hpow : (2 : K) ^ ((p.log2 : ℤ) - q.log2 + 1) = 2 ^ (p.log2 + 1) / 2 ^ q.log2 := by
      rw [← zpow_natCast, ← zpow_natCast, ← zpow_sub₀ two_ne_zero]
      congr 1
      omega
    rw [hpow]
    exact div_lt_div₀ (by exact_mod_cast Nat.lt_log2_self) (by exact_mod_cast Nat.log2_self_le hq.ne')
      (by positivity) (by positivity)
  rw [log2Quotient]
  simp only [htest]
  split_ifs with h
  · exact ⟨h, hhi⟩
  · exact ⟨hlo, by rw [sub_add_cancel]; exact not_le.1 h⟩

/-! ### Significand and scale -/

/-- The exponent of the last place that a result keeps (R216). -/
def roundUnit (p q : ℕ) : ℤ := max (log2Quotient p q - 23) (-149)

/-- The 31 low bits that rounding gives before the range is looked at. -/
def roundedLow (m : Rounding) (sign : Bool) (p q : ℕ) : ℕ :=
  (roundUnit p q + 149).toNat * 2 ^ 23 + roundScaled m sign p q (roundUnit p q)

/-- The magnitude `p/q` in units of 2^-149. -/
def unitRatio (K : Type*) [Field K] (p q : ℕ) : K := (p : K) / q * 2 ^ 149

theorem roundFp_bits (m : Rounding) (sign : Bool) (p q : ℕ) : (roundFp m sign p q).bits =
    if roundedLow m sign p q < infBits then withSign sign (roundedLow m sign p q)
    else if overflowsToInf m sign then signedInf sign else withSign sign (infBits - 1) := by
  rw [roundFp, ← roundUnit, ← roundedLow]
  split_ifs <;> rfl

theorem roundFp_inexact (m : Rounding) (sign : Bool) (p q : ℕ) : (roundFp m sign p q).inexact =
    if roundedLow m sign p q < infBits then !exactScaled p q (roundUnit p q) else true := by
  rw [roundFp, ← roundUnit, ← roundedLow]
  split_ifs <;> rfl

/-- The significand has at most 24 bits, and 24 where the last place is above 2^-149. -/
theorem significand_bounds {p q : ℕ} (hp : 0 < p) (hq : 0 < q) :
    ((roundUnit p q + 149).toNat = 0 ∨
      2 ^ 23 ≤ (p * 2 ^ (-roundUnit p q).toNat) / (q * 2 ^ (roundUnit p q).toNat)) ∧
    (p * 2 ^ (-roundUnit p q).toNat) / (q * 2 ^ (roundUnit p q).toNat) < 2 ^ 24 := by
  obtain ⟨hlo, hhi⟩ := log2Quotient_spec (K := ℚ) hp hq
  have hscaled := scaled_div (K := ℚ) p q (roundUnit p q)
  generalize hk : log2Quotient p q = k at hlo hhi
  have hu : roundUnit p q = max (k - 23) (-149) := by rw [roundUnit, hk]
  generalize roundUnit p q = u at hu hscaled ⊢
  have hQ : 0 < q * 2 ^ u.toNat := by positivity
  constructor
  · by_cases h : k - 23 ≤ -149
    · exact .inl (by omega)
    · right
      rw [Nat.le_div_iff_mul_le hQ, ← Nat.cast_le (α := ℚ), Nat.cast_mul, ← le_div_iff₀ (Nat.cast_pos.2 hQ), hscaled,
        le_div_iff₀ (zpow_pos two_pos _)]
      calc ((2 ^ 23 : ℕ) : ℚ) * 2 ^ u = 2 ^ (23 + u) := by
            rw [zpow_add₀ two_ne_zero]
            norm_num
        _ = 2 ^ k := by congr 1; omega
        _ ≤ (p : ℚ) / q := hlo
  · rw [Nat.div_lt_iff_lt_mul hQ, ← Nat.cast_lt (α := ℚ), Nat.cast_mul (2 ^ 24),
      ← div_lt_iff₀ (Nat.cast_pos.2 hQ), hscaled, div_lt_iff₀ (zpow_pos two_pos _)]
    calc (p : ℚ) / q < 2 ^ (k + 1) := hhi
      _ ≤ 2 ^ (24 + u) := zpow_le_zpow_right₀ one_le_two (by omega)
      _ = ((2 ^ 24 : ℕ) : ℚ) * 2 ^ u := by
        rw [zpow_add₀ two_ne_zero]
        norm_num

/-- The exact magnitude in units of 2^-149, by the scale of its last place. -/
theorem unitRatio_eq (p q : ℕ) :
    unitRatio K p q = ((p * 2 ^ (-roundUnit p q).toNat : ℕ) : K) / (q * 2 ^ (roundUnit p q).toNat : ℕ) *
      2 ^ (roundUnit p q + 149).toNat := by
  have hu : -149 ≤ roundUnit p q := le_max_right _ _
  have hj : ((roundUnit p q + 149).toNat : ℤ) = roundUnit p q + 149 := Int.toNat_of_nonneg (by omega)
  rw [scaled_div, ← zpow_natCast, hj, zpow_add₀ two_ne_zero, ← mul_assoc, div_mul_cancel₀ _ (by positivity), unitRatio]
  norm_cast

/-- The two neighbours of the exact magnitude, by the significand rounded down. -/
theorem unitsOf_neighbours {p q : ℕ} (hp : 0 < p) (hq : 0 < q) {j n : ℕ} (hj : (roundUnit p q + 149).toNat = j)
    (hn : (p * 2 ^ (-roundUnit p q).toNat) / (q * 2 ^ (roundUnit p q).toNat) = n) :
    unitsOf (j * 2 ^ 23 + n) = n * 2 ^ j ∧ unitsOf (j * 2 ^ 23 + n + 1) = (n + 1) * 2 ^ j := by
  obtain ⟨hscale, hlt⟩ := significand_bounds hp hq
  rw [hj, hn] at hscale
  rw [hn] at hlt
  rw [add_assoc]
  exact ⟨unitsOf_add hscale hlt.le, unitsOf_add (hscale.imp_right Nat.le_succ_of_le) (Nat.succ_le_of_lt hlt)⟩

/-- The low bits delivered are those of the rounded magnitude, and the test for an inexact result compares it with the
exact one. -/
theorem roundsOn_roundedLow {p q : ℕ} (hp : 0 < p) (hq : 0 < q) (m : Rounding) (sign : Bool) :
    RoundsOn unitsOf m sign (unitRatio K p q) (roundedLow m sign p q) ∧
      (exactScaled p q (roundUnit p q) = true ↔ (unitsOf (roundedLow m sign p q) : K) = unitRatio K p q) := by
  have hQ : 0 < q * 2 ^ (roundUnit p q).toNat := by positivity
  rw [roundedLow, roundScaled, exactScaled, beq_iff_eq, mod_eq_zero_iff (K := K) hQ, unitRatio_eq]
  obtain ⟨hlo, hhi⟩ := unitsOf_neighbours hp hq rfl rfl
  have hfloor := floor_le_natCast_div (K := K) (p := p * 2 ^ (-roundUnit p q).toNat) hQ
  have hcases := roundQuotient_cases (K := K) (p := p * 2 ^ (-roundUnit p q).toNat) hQ m sign
  generalize (roundUnit p q + 149).toNat = j at *
  generalize p * 2 ^ (-roundUnit p q).toNat = P at *
  generalize q * 2 ^ (roundUnit p q).toNat = Q at *
  have hc : (0 : K) < 2 ^ j := by positivity
  have hlo' : (unitsOf (j * 2 ^ 23 + P / Q) : K) = (P / Q : ℕ) * 2 ^ j := by rw [hlo]; norm_cast
  have hhi' : (unitsOf (j * 2 ^ 23 + P / Q + 1) : K) = ((P / Q : ℕ) + 1) * 2 ^ j := by rw [hhi]; norm_cast
  have hle : (unitsOf (j * 2 ^ 23 + P / Q) : K) ≤ (P : K) / Q * 2 ^ j := by
    rw [hlo']
    exact mul_le_mul_of_nonneg_right hfloor.1 hc.le
  have hlt : (P : K) / Q * 2 ^ j < unitsOf (j * 2 ^ 23 + P / Q + 1) := by
    rw [hhi']
    exact mul_lt_mul_of_pos_right hfloor.2 hc
  have hon : RoundsOn unitsOf m sign ((P : K) / Q * 2 ^ j) (j * 2 ^ 23 + roundQuotient m sign P Q) := by
    refine ⟨j * 2 ^ 23 + P / Q, hle, hlt, ?_⟩
    rw [hlo', hhi', goesUp_scale hc (n' := P / Q) (by omega)]
    exact hcases.imp (And.imp_right fun h => by rw [h, add_assoc]) (And.imp_right fun h => by rw [h])
  refine ⟨hon, ?_⟩
  rw [hon.cast_eq_iff unitsOf_strictMono hle hlt, hlo', mul_left_inj' hc.ne', eq_comm]

end

end Sys2Proof.Machine
end

section
/-! Rounding delivers the single-precision number that its mode names (spec/43_floating_point.md R212, R215, R216). -/

namespace Sys2Proof.Machine

/-! ### What is delivered, in and beyond the range -/

/-- The low bits delivered for the rounded magnitude's low bits `b`: beyond the range an infinity's or the largest finite
number's (R216). -/
def deliveredLow (m : Rounding) (sign : Bool) (b : ℕ) : ℕ :=
  if b < infBits then b else if overflowsToInf m sign then infBits else infBits - 1

theorem deliveredLow_lt (m : Rounding) (sign : Bool) (b : ℕ) : deliveredLow m sign b < 2 ^ 31 := by
  unfold deliveredLow infBits
  split_ifs <;> omega

theorem roundFp_bits_eq (m : Rounding) (sign : Bool) (p q : ℕ) :
    (roundFp m sign p q).bits = withSign sign (deliveredLow m sign (roundedLow m sign p q)) := by
  rw [roundFp_bits, deliveredLow]
  split_ifs <;> rfl

theorem fpSign_roundFp (m : Rounding) (sign : Bool) (p q : ℕ) : fpSign (roundFp m sign p q).bits = sign := by
  rw [roundFp_bits_eq, fpSign_withSign sign (deliveredLow_lt _ _ _)]

theorem overflowsToInf_of_towardZero {m : Rounding} {sign : Bool} (h : TowardZero m sign) :
    overflowsToInf m sign = false := by
  obtain rfl | ⟨rfl, rfl⟩ | ⟨rfl, rfl⟩ := h <;> rfl

theorem overflowsToInf_of_awayFromZero {m : Rounding} {sign : Bool} (h : AwayFromZero m sign) :
    overflowsToInf m sign = true := by
  obtain ⟨rfl, rfl⟩ | ⟨rfl, rfl⟩ := h <;> rfl

theorem overflowsToInf_of_nearest {m : Rounding} (sign : Bool) (h : m = .rne ∨ m = .rmm) :
    overflowsToInf m sign = true := by
  obtain rfl | rfl := h <;> rfl

/-! ### Values and magnitudes -/

theorem abs_signFactor (sign : Bool) : |signFactor sign| = 1 := by
  cases sign <;> norm_num [signFactor]

theorem signFactor_ne_zero (sign : Bool) : signFactor sign ≠ 0 := by
  cases sign <;> norm_num [signFactor]

theorem fpVal_withSign (sign : Bool) {n : ℕ} (hn : n < 2 ^ 31) :
    fpVal (withSign sign n) = signFactor sign * (unitsOf n / 2 ^ 149) := by
  rw [fpVal_eq, fpSign_withSign sign hn, fpLow_withSign sign hn]

theorem isFinite_withSign (sign : Bool) {n : ℕ} (hn : n < infBits) : isFinite (withSign sign n) = true := by
  rwa [isFinite_iff, fpLow_withSign sign (hn.trans infBits_lt)]

theorem abs_fpVal (w : Word) : |fpVal w| = unitsOf (fpLow w) / 2 ^ 149 := by
  rw [fpVal_eq, abs_mul, abs_signFactor, one_mul, abs_of_nonneg (by positivity)]

theorem signedRatio_eq_mul (sign : Bool) (p q : ℕ) : signedRatio sign p q = signFactor sign * ((p : ℚ) / q) := rfl

theorem signedRatio_eq (sign : Bool) (p q : ℕ) :
    signedRatio sign p q = signFactor sign * (unitRatio ℚ p q / 2 ^ 149) := by
  rw [signedRatio_eq_mul, unitRatio, mul_div_cancel_right₀ _ (by positivity)]

theorem unitRatio_pos {K : Type*} [Field K] [LinearOrder K] [IsStrictOrderedRing K] {p q : ℕ} (hp : 0 < p)
    (hq : 0 < q) : 0 < unitRatio K p q := by
  unfold unitRatio
  positivity

theorem abs_signedRatio {sign : Bool} {p q : ℕ} (hp : 0 < p) (hq : 0 < q) :
    |signedRatio sign p q| = unitRatio ℚ p q / 2 ^ 149 := by
  rw [signedRatio_eq, abs_mul, abs_signFactor, one_mul, abs_of_pos (div_pos (unitRatio_pos hp hq) (by positivity))]

theorem signedRatio_neg_iff {sign : Bool} {p q : ℕ} (hp : 0 < p) (hq : 0 < q) :
    signedRatio sign p q < 0 ↔ sign = true := by
  have hpos : 0 < unitRatio ℚ p q / 2 ^ 149 := div_pos (unitRatio_pos hp hq) (by positivity)
  rw [signedRatio_eq]
  cases sign
  · simpa [signFactor] using hpos.le
  · simpa [signFactor] using hpos

/-- Values of one sign are equal where their magnitudes are. -/
theorem fpVal_eq_signedRatio_iff {sign : Bool} {p q n : ℕ} (hn : n < 2 ^ 31) :
    fpVal (withSign sign n) = signedRatio sign p q ↔ (unitsOf n : ℚ) = unitRatio ℚ p q := by
  rw [fpVal_withSign sign hn, signedRatio_eq, mul_right_inj' (signFactor_ne_zero sign), div_left_inj' (by positivity)]

/-! ### Inexact results (R215) -/

/-- Settles O34: in the range the test for an inexact result compares the rounded magnitude with the exact one; beyond it
the exact magnitude is no finite number's, which would have been rounded to itself. -/
theorem inexactMeansChanged : Obligations.InexactMeansChanged := by
  intro m sign p q hp hq
  obtain ⟨hon, hexact⟩ := roundsOn_roundedLow (K := ℚ) hp hq m sign
  rw [roundFp_inexact, roundFp_bits_eq, fpVal_eq_signedRatio_iff (deliveredLow_lt _ _ _), isFinite_iff,
    fpLow_withSign sign (deliveredLow_lt _ _ _)]
  by_cases hb : roundedLow m sign p q < infBits
  · rw [if_pos hb, deliveredLow, if_pos hb, ← hexact]
    simp [hb]
  · rw [if_neg hb]
    refine iff_of_false (by decide) fun ⟨hlt, heq⟩ => hb ?_
    rwa [hon.eq_of_cast_eq unitsOf_strictMono heq]

/-! ### Negation -/

/-- The word of the other sign. -/
def fpNeg (w : Word) : Word := withSign (!fpSign w) (fpLow w)

theorem fpNeg_withSign (sign : Bool) {n : ℕ} (hn : n < 2 ^ 31) : fpNeg (withSign sign n) = withSign (!sign) n := by
  rw [fpNeg, fpSign_withSign sign hn, fpLow_withSign sign hn]

theorem isFinite_fpNeg (w : Word) : isFinite (fpNeg w) = true ↔ isFinite w = true := by
  rw [isFinite_iff, isFinite_iff, fpNeg, fpLow_withSign _ (fpLow_lt w)]

theorem fpVal_fpNeg (w : Word) : fpVal (fpNeg w) = -fpVal w := by
  rw [fpNeg, fpVal_withSign _ (fpLow_lt w), fpVal_eq w]
  cases fpSign w <;> simp [signFactor]

theorem GreatestBelow.neg {x : ℚ} {v : Word} (h : GreatestBelow x v) : LeastAbove (-x) (fpNeg v) := by
  obtain ⟨hv, hle, hmax⟩ | ⟨rfl, habove⟩ := h
  · refine .inl ⟨(isFinite_fpNeg v).2 hv, by rw [fpVal_fpNeg]; exact neg_le_neg hle, fun w hw hxw => ?_⟩
    have := hmax (fpNeg w) ((isFinite_fpNeg w).2 hw) (by rw [fpVal_fpNeg]; linarith)
    rw [fpVal_fpNeg] at this ⊢
    linarith
  · refine .inr ⟨fpNeg_withSign true infBits_lt, fun w hw => ?_⟩
    have := habove (fpNeg w) ((isFinite_fpNeg w).2 hw)
    rw [fpVal_fpNeg] at this
    linarith

theorem LeastAbove.neg {x : ℚ} {v : Word} (h : LeastAbove x v) : GreatestBelow (-x) (fpNeg v) := by
  obtain ⟨hv, hle, hmin⟩ | ⟨rfl, hbelow⟩ := h
  · refine .inl ⟨(isFinite_fpNeg v).2 hv, by rw [fpVal_fpNeg]; exact neg_le_neg hle, fun w hw hxw => ?_⟩
    have := hmin (fpNeg w) ((isFinite_fpNeg w).2 hw) (by rw [fpVal_fpNeg]; linarith)
    rw [fpVal_fpNeg] at this ⊢
    linarith
  · refine .inr ⟨fpNeg_withSign false infBits_lt, fun w hw => ?_⟩
    have := hbelow (fpNeg w) ((isFinite_fpNeg w).2 hw)
    rw [fpVal_fpNeg] at this
    linarith

/-! ### Directed rounding (R212) -/

section
variable {m : Rounding} {sign : Bool} {p q : ℕ}

theorem fpVal_le_abs (w : Word) : fpVal w ≤ unitsOf (fpLow w) / 2 ^ 149 := abs_fpVal w ▸ le_abs_self _

theorem fpVal_withSign_false {n : ℕ} (hn : n < 2 ^ 31) : fpVal (withSign false n) = unitsOf n / 2 ^ 149 := by
  rw [fpVal_withSign false hn]
  exact one_mul _

/-- Toward zero, as magnitudes: the greatest finite number not above. -/
theorem greatestBelow_of_towardZero (hp : 0 < p) (hq : 0 < q) (hm : TowardZero m sign) :
    GreatestBelow (unitRatio ℚ p q / 2 ^ 149) (withSign false (deliveredLow m sign (roundedLow m sign p q))) := by
  have hle := (roundsOn_roundedLow (K := ℚ) hp hq m sign).1.le_iff unitsOf_strictMono hm
  generalize roundedLow m sign p q = b at hle
  have hlow : deliveredLow m sign b = min b (infBits - 1) := by
    rw [deliveredLow, overflowsToInf_of_towardZero hm, if_neg Bool.false_ne_true]
    unfold infBits
    split_ifs <;> omega
  have hfin : deliveredLow m sign b < infBits := by
    rw [hlow]
    exact (min_le_right _ _).trans_lt (by decide)
  refine .inl ⟨isFinite_withSign false hfin, ?_, fun w hw hwx => ?_⟩
  · rw [fpVal_withSign_false (deliveredLow_lt _ _ _), div_le_div_iff_of_pos_right (by positivity), hle, hlow]
    exact min_le_left _ _
  · rw [fpVal_withSign_false (deliveredLow_lt _ _ _)]
    obtain hneg | hpos := le_total (fpVal w) 0
    · exact hneg.trans (by positivity)
    · rw [← abs_of_nonneg hpos, abs_fpVal, div_le_div_iff_of_pos_right (by positivity)] at hwx ⊢
      rw [RoundsOn.cast_le_iff unitsOf_strictMono, hlow]
      exact le_min ((hle _).1 hwx) (Nat.le_sub_one_of_lt ((isFinite_iff w).1 hw))

/-- Away from zero, as magnitudes: the least number not below. -/
theorem leastAbove_of_awayFromZero (hp : 0 < p) (hq : 0 < q) (hm : AwayFromZero m sign) :
    LeastAbove (unitRatio ℚ p q / 2 ^ 149) (withSign false (deliveredLow m sign (roundedLow m sign p q))) := by
  have hge := (roundsOn_roundedLow (K := ℚ) hp hq m sign).1.ge_iff unitsOf_strictMono hm
  have hX := unitRatio_pos (K := ℚ) hp hq
  generalize roundedLow m sign p q = b at hge
  rw [deliveredLow, overflowsToInf_of_awayFromZero hm, if_pos rfl]
  split_ifs with hb
  · refine .inl ⟨isFinite_withSign false hb, ?_, fun w hw hxw => ?_⟩
    · rw [fpVal_withSign_false (hb.trans infBits_lt), div_le_div_iff_of_pos_right (by positivity), hge]
    · rw [fpVal_withSign_false (hb.trans infBits_lt)]
      have hxw' := hxw.trans (fpVal_le_abs w)
      rw [div_le_div_iff_of_pos_right (by positivity), hge] at hxw'
      have hpos : 0 ≤ fpVal w := (div_pos hX (by positivity)).le.trans hxw
      rw [← abs_of_nonneg hpos, abs_fpVal, div_le_div_iff_of_pos_right (by positivity),
        RoundsOn.cast_le_iff unitsOf_strictMono]
      exact hxw'
  · refine .inr ⟨rfl, fun w hw => (fpVal_le_abs w).trans_lt ?_⟩
    rw [div_lt_div_iff_of_pos_right (by positivity), ← not_le, hge]
    exact fun hbw => hb (hbw.trans_lt ((isFinite_iff w).1 hw))

/-- A positive ratio's rounding as that of the magnitude. -/
theorem signedRatio_false (p q : ℕ) : signedRatio false p q = unitRatio ℚ p q / 2 ^ 149 := by
  rw [signedRatio_eq]
  exact one_mul _

theorem signedRatio_true (p q : ℕ) : signedRatio true p q = -(unitRatio ℚ p q / 2 ^ 149) := by
  rw [signedRatio_eq]
  exact neg_one_mul _

theorem roundFp_true_bits (m : Rounding) (p q : ℕ) :
    (roundFp m true p q).bits = fpNeg (withSign false (deliveredLow m true (roundedLow m true p q))) := by
  rw [roundFp_bits_eq, fpNeg_withSign false (deliveredLow_lt _ _ _)]
  rfl

end

/-- Settles O32: a directed mode goes toward zero or away from it, and for a negative number the two sides change
places. -/
theorem directedRounding : Obligations.DirectedRounding := by
  intro m sign p q hp hq hm
  refine ⟨?_, fpSign_roundFp m sign p q⟩
  cases sign
  · have htoward := greatestBelow_of_towardZero (m := m) (sign := false) hp hq
    have haway := leastAbove_of_awayFromZero (m := m) (sign := false) hp hq
    rw [← signedRatio_false, ← roundFp_bits_eq] at htoward haway
    obtain rfl | rfl | rfl := hm
    · rw [RoundsTo, if_pos (not_lt.1 (mt (signedRatio_neg_iff hp hq).1 Bool.false_ne_true))]
      exact htoward (.inl rfl)
    · exact htoward (.inr (.inl ⟨rfl, rfl⟩))
    · exact haway (.inr ⟨rfl, rfl⟩)
  · have htoward := fun h => (greatestBelow_of_towardZero (m := m) (sign := true) hp hq h).neg
    have haway := fun h => (leastAbove_of_awayFromZero (m := m) (sign := true) hp hq h).neg
    rw [← signedRatio_true, ← roundFp_true_bits] at htoward haway
    obtain rfl | rfl | rfl := hm
    · rw [RoundsTo, if_neg (not_le.2 ((signedRatio_neg_iff hp hq).2 rfl))]
      exact htoward (.inl rfl)
    · exact haway (.inl ⟨rfl, rfl⟩)
    · exact htoward (.inr (.inr ⟨rfl, rfl⟩))

end Sys2Proof.Machine
end

section
/-! Rounding to nearest delivers a nearest single-precision number, with the tie rule of its mode (spec/43_floating_point.md
R212, R216). -/

namespace Sys2Proof.Machine

section
variable {m : Rounding} {sign : Bool} {p q : ℕ}

/-- The distance of a finite number is at least that of its magnitude. -/
theorem le_abs_fpVal_sub (hp : 0 < p) (hq : 0 < q) (w : Word) :
    |(unitsOf (fpLow w) : ℚ) - unitRatio ℚ p q| / 2 ^ 149 ≤ |fpVal w - signedRatio sign p q| := by
  have h := abs_abs_sub_abs_le_abs_sub (fpVal w) (signedRatio sign p q)
  rwa [abs_fpVal, abs_signedRatio hp hq, ← sub_div, abs_div, abs_of_pos (by positivity : (0 : ℚ) < 2 ^ 149)] at h

/-- For a number of the ratio's sign it is that of its magnitude. -/
theorem abs_fpVal_withSign_sub {n : ℕ} (hn : n < 2 ^ 31) :
    |fpVal (withSign sign n) - signedRatio sign p q| = |(unitsOf n : ℚ) - unitRatio ℚ p q| / 2 ^ 149 := by
  rw [fpVal_withSign sign hn, signedRatio_eq, ← mul_sub, abs_mul, abs_signFactor, one_mul, ← sub_div, abs_div,
    abs_of_pos (by positivity : (0 : ℚ) < 2 ^ 149)]

/-- The threshold of R216 is the midpoint of the largest finite number and the infinity's magnitude. -/
theorem lt_threshold_iff (hp : 0 < p) (hq : 0 < q) (hm : m = .rne ∨ m = .rmm) :
    |signedRatio sign p q| < 2 ^ 128 - 2 ^ 103 ↔ roundedLow m sign p q < infBits := by
  have hodd := (roundsOn_roundedLow (K := ℚ) hp hq m sign).1.le_odd_iff unitsOf_strictMono hm
    (N := infBits - 1) (by decide)
  have hmid : (unitsOf (infBits - 1) : ℚ) + unitsOf (infBits - 1 + 1) = 2 * ((2 ^ 128 - 2 ^ 103) * 2 ^ 149) := by
    rw [unitsOf_maxFinite, show infBits - 1 + 1 = infBits from rfl, unitsOf_infBits]
    norm_num
  rw [hmid, mul_lt_mul_iff_of_pos_left two_pos] at hodd
  rw [abs_signedRatio hp hq, div_lt_iff₀ (by positivity), ← hodd]
  exact (Nat.lt_iff_le_pred (by decide)).symm

theorem roundFp_bits_of_lt (h : roundedLow m sign p q < infBits) :
    (roundFp m sign p q).bits = withSign sign (roundedLow m sign p q) := by
  rw [roundFp_bits_eq, deliveredLow, if_pos h]

/-- R216's overflow and R212's nearest number. -/
theorem nearest_roundFp (hp : 0 < p) (hq : 0 < q) (hm : m = .rne ∨ m = .rmm) :
    Nearest (signedRatio sign p q) (roundFp m sign p q).bits := by
  rw [Nearest]
  split_ifs with h
  · rw [lt_threshold_iff hp hq hm] at h
    rw [roundFp_bits_of_lt h]
    refine ⟨isFinite_withSign sign h, fun w _ => ?_⟩
    rw [abs_fpVal_withSign_sub (h.trans infBits_lt)]
    refine le_trans ?_ (le_abs_fpVal_sub hp hq w)
    exact div_le_div_of_nonneg_right
      ((roundsOn_roundedLow hp hq m sign).1.abs_sub_le unitsOf_strictMono hm _) (by positivity)
  · rw [lt_threshold_iff hp hq hm] at h
    have hsign : decide (signedRatio sign p q < 0) = sign := by
      rw [Bool.eq_iff_iff, decide_eq_true_iff, signedRatio_neg_iff hp hq]
    rw [roundFp_bits_eq, deliveredLow, if_neg h, if_pos (overflowsToInf_of_nearest sign hm), hsign]
    rfl

/-- A number as near as another of its magnitude but of the other sign would be zero. -/
theorem fpLow_ne_of_tie (hp : 0 < p) (hq : 0 < q) {v w : Word} (h : TiesWith (signedRatio sign p q) v w) :
    fpLow w ≠ fpLow v := by
  obtain ⟨-, -, hne, htie⟩ := h
  intro hlow
  have hx : signedRatio sign p q ≠ 0 := by
    rw [← abs_pos, abs_signedRatio hp hq]
    exact div_pos (unitRatio_pos hp hq) (by positivity)
  have habs : |fpVal w| = |fpVal v| := by rw [abs_fpVal, abs_fpVal, hlow]
  have hneg : fpVal w = -fpVal v := (abs_eq_abs.1 habs).resolve_left hne
  have hprod : fpVal v * signedRatio sign p q = 0 := by
    have hsq := (sq_eq_sq_iff_abs_eq_abs _ _).2 htie
    rw [hneg] at hsq
    linarith
  have hv : fpVal v = 0 := (mul_eq_zero.1 hprod).resolve_right hx
  exact hne (by rw [hneg, hv, neg_zero])

/-- A tie of numbers is a tie of their magnitudes, in the range. -/
theorem roundedLow_tie (hp : 0 < p) (hq : 0 < q) (hm : m = .rne ∨ m = .rmm) {w : Word}
    (h : TiesWith (signedRatio sign p q) (roundFp m sign p q).bits w) :
    roundedLow m sign p q < infBits ∧ fpLow w ≠ roundedLow m sign p q ∧
      |(unitsOf (fpLow w) : ℚ) - unitRatio ℚ p q| ≤ |(unitsOf (roundedLow m sign p q) : ℚ) - unitRatio ℚ p q| := by
  have hlow := fpLow_ne_of_tie hp hq h
  obtain ⟨hfin, -, -, htie⟩ := h
  have hlt : roundedLow m sign p q < infBits := by
    by_contra hb
    rw [roundFp_bits_eq, deliveredLow, if_neg hb, if_pos (overflowsToInf_of_nearest sign hm), isFinite_iff,
      fpLow_withSign sign infBits_lt] at hfin
    exact lt_irrefl _ hfin
  rw [roundFp_bits_of_lt hlt] at hlow htie
  rw [fpLow_withSign sign (hlt.trans infBits_lt)] at hlow
  rw [abs_fpVal_withSign_sub (hlt.trans infBits_lt)] at htie
  exact ⟨hlt, hlow, (div_le_div_iff_of_pos_right (by positivity)).1 (htie ▸ le_abs_fpVal_sub hp hq w)⟩

theorem withSign_bit_zero (sign : Bool) {n : ℕ} (hn : n < 2 ^ 31) (heven : n % 2 = 0) :
    (withSign sign n).getLsbD 0 = false := by
  rw [BitVec.getLsbD, Nat.testBit_zero, withSign_toNat sign hn, decide_eq_false_iff_not]
  split_ifs <;> omega

end

/-- Settles O33: the grid of magnitudes has no nearer point, and its ties are those of the numbers. -/
theorem nearestRounding : Obligations.NearestRounding := by
  intro m sign p q hp hq hm
  refine ⟨?_, fpSign_roundFp m sign p q⟩
  have hnear := nearest_roundFp (sign := sign) hp hq hm
  obtain rfl | rfl := hm
  · refine ⟨hnear, fun w hw => ?_⟩
    obtain ⟨hlt, hne, htie⟩ := roundedLow_tie hp hq (.inl rfl) hw
    rw [roundFp_bits_of_lt hlt]
    exact withSign_bit_zero sign (hlt.trans infBits_lt)
      ((roundsOn_roundedLow hp hq _ sign).1.even_of_tie unitsOf_strictMono hne htie)
  · refine ⟨hnear, fun w hw => ?_⟩
    obtain ⟨hlt, hne, htie⟩ := roundedLow_tie hp hq (.inr rfl) hw
    have hlow := (roundsOn_roundedLow hp hq _ sign).1.lt_of_tie unitsOf_strictMono hne htie
    rw [roundFp_bits_of_lt hlt, abs_fpVal, abs_fpVal, fpLow_withSign sign (hlt.trans infBits_lt)]
    exact div_le_div_of_nonneg_right ((RoundsOn.cast_le_iff unitsOf_strictMono).2 hlow.le) (by positivity)

end Sys2Proof.Machine
end

section
/-! The exact results that are rounded: sums, differences, products, quotients and integers (spec/43_floating_point.md R216,
R238, R239). -/

namespace Sys2Proof.Machine

/-! ### Sums and differences -/

theorem fpAdd_finite {m : Rounding} {a b : Word} (ha : isFinite a = true) (hb : isFinite b = true) :
    fpAdd m a b = addFinite m (fpSign a) (fpSign b) (fpInt a) (fpInt b) := ieeeAddSub_finite ha hb

theorem fpSub_finite {m : Rounding} {a b : Word} (ha : isFinite a = true) (hb : isFinite b = true) :
    fpSub m a b = addFinite m (fpSign a) (!fpSign b) (fpInt a) (-fpInt b) := by
  have hneg : (if !fpSign b then -(magnitude b : Int) else magnitude b) = -fpInt b := by
    cases hs : fpSign b <;> simp [fpInt, hs]
  rw [fpSub_eq, ieeeAddSub_finite ha hb, hneg]

theorem addFinite_zero {m : Rounding} {sa sb : Bool} {x y : ℤ} (h : x + y = 0) :
    addFinite m sa sb x y = { bits := signedZero (zeroSumSign m sa sb) } := if_pos h

theorem addFinite_ne_zero {m : Rounding} {sa sb : Bool} {x y : ℤ} (h : x + y ≠ 0) :
    addFinite m sa sb x y = roundFp m (decide (x + y < 0)) (x + y).natAbs (2 ^ 149) := if_neg h

theorem fpVal_add (a b : Word) : fpVal a + fpVal b = ((fpInt a + fpInt b : ℤ) : ℚ) / 2 ^ 149 := by
  rw [fpVal, fpVal, ← add_div, Int.cast_add]

theorem fpVal_sub (a b : Word) : fpVal a - fpVal b = ((fpInt a + -fpInt b : ℤ) : ℚ) / 2 ^ 149 := by
  rw [fpVal, fpVal, ← sub_div, Int.cast_add, Int.cast_neg, sub_eq_add_neg]

theorem units_div_eq_zero_iff (z : ℤ) : (z : ℚ) / 2 ^ 149 = 0 ↔ z = 0 := by
  rw [div_eq_zero_iff, or_iff_left (by positivity), Int.cast_eq_zero]

/-- Settles O30: an exact sum of values is zero where the sum of the operands' units is. -/
theorem exactZeroSums : Obligations.ExactZeroSums := by
  intro m a b ha hb
  rw [fpVal_add, fpVal_sub, units_div_eq_zero_iff, units_div_eq_zero_iff, fpAdd_finite ha hb, fpSub_finite ha hb]
  refine ⟨fun h => ?_, fun h => ?_⟩
  · rw [addFinite_zero h]
    refine ⟨congrArg signedZero ?_, rfl⟩
    cases fpSign a <;> cases fpSign b <;> rfl
  · rw [addFinite_zero h]
    refine ⟨congrArg signedZero ?_, rfl⟩
    cases fpSign a <;> cases fpSign b <;> rfl

/-! ### Exact results as signed ratios -/

/-- The result is the rounding of the value `x`. -/
def RoundsValue (m : Rounding) (x : ℚ) (r : Rounded) : Prop :=
  ∃ sign p q, 0 < p ∧ 0 < q ∧ signedRatio sign p q = x ∧ r = roundFp m sign p q

theorem signedRatio_natAbs (z : ℤ) (q : ℕ) : signedRatio (decide (z < 0)) z.natAbs q = z / q := by
  have habs : (if decide (z < 0) = true then -1 else 1) * (z.natAbs : ℚ) = z := by
    simp only [decide_eq_true_eq, Nat.cast_natAbs, Int.cast_abs]
    split_ifs with h
    · rw [abs_of_neg (Int.cast_lt_zero.2 h), neg_one_mul, neg_neg]
    · rw [abs_of_nonneg (Int.cast_nonneg (not_lt.1 h)), one_mul]
  rw [signedRatio, ← mul_div_assoc, habs]

theorem roundsValue_natAbs {m : Rounding} {z : ℤ} (hz : z ≠ 0) {q : ℕ} (hq : 0 < q) :
    RoundsValue m (z / q) (roundFp m (decide (z < 0)) z.natAbs q) :=
  ⟨_, _, _, Int.natAbs_pos.2 hz, hq, signedRatio_natAbs z q, rfl⟩

theorem roundsValue_addFinite {m : Rounding} {sa sb : Bool} {x y : ℤ} (h : ((x + y : ℤ) : ℚ) / 2 ^ 149 ≠ 0) :
    RoundsValue m (((x + y : ℤ) : ℚ) / 2 ^ 149) (addFinite m sa sb x y) := by
  have hz : x + y ≠ 0 := mt (units_div_eq_zero_iff _).2 h
  rw [addFinite_ne_zero hz]
  exact_mod_cast roundsValue_natAbs (m := m) hz (q := 2 ^ 149) (by positivity)

theorem signFactor_bne (sa sb : Bool) : signFactor (sa != sb) = signFactor sa * signFactor sb := by
  cases sa <;> cases sb <;> norm_num [signFactor]

theorem signFactor_inv (sign : Bool) : (signFactor sign)⁻¹ = signFactor sign := by
  cases sign <;> norm_num [signFactor]

theorem fpVal_eq_magnitude (w : Word) : fpVal w = signFactor (fpSign w) * (magnitude w / 2 ^ 149) := by
  rw [fpVal_eq, magnitude_eq]

theorem isZero_eq_false_of_fpVal {w : Word} (h : fpVal w ≠ 0) : isZero w = false := by
  rw [Bool.eq_false_iff, ne_eq, ← fpInt_eq_zero_iff]
  exact mt (units_div_eq_zero_iff _).2 h

theorem roundsValue_fpMul {m : Rounding} {a b : Word} (ha : isFinite a = true) (hb : isFinite b = true)
    (h : fpVal a * fpVal b ≠ 0) : RoundsValue m (fpVal a * fpVal b) (fpMul m a b) := by
  have hza := isZero_eq_false_of_fpVal (left_ne_zero_of_mul h)
  have hzb := isZero_eq_false_of_fpVal (right_ne_zero_of_mul h)
  refine ⟨_, _, _, Nat.mul_pos (magnitude_pos hza) (magnitude_pos hzb), by positivity, ?_, fpMul_finite ha hb hza hzb⟩
  rw [signedRatio_eq_mul, signFactor_bne, fpVal_eq_magnitude a, fpVal_eq_magnitude b,
    show 298 = 149 + 149 from rfl, pow_add]
  push_cast
  ring

theorem roundsValue_fpDiv {m : Rounding} {a b : Word} (ha : isFinite a = true) (hb : isFinite b = true)
    (hva : fpVal a ≠ 0) (hvb : fpVal b ≠ 0) : RoundsValue m (fpVal a / fpVal b) (fpDiv m a b) := by
  have hza := isZero_eq_false_of_fpVal hva
  have hzb := isZero_eq_false_of_fpVal hvb
  refine ⟨_, _, _, magnitude_pos hza, magnitude_pos hzb, ?_, fpDiv_finite ha hb hza hzb⟩
  rw [signedRatio_eq_mul, signFactor_bne, fpVal_eq_magnitude a, fpVal_eq_magnitude b, mul_div_mul_comm,
    div_div_div_cancel_right₀ (by positivity), div_eq_mul_inv (signFactor (fpSign a)), signFactor_inv]

theorem roundsValue_intToFp {m : Rounding} {x : ℤ} (hx : x ≠ 0) : RoundsValue m x (intToFp m x) := by
  have h := roundsValue_natAbs (m := m) hx one_pos
  rwa [Nat.cast_one, div_one, ← show intToFp m x = _ from if_neg hx] at h

/-- Settles O31: each operation hands the exact result of its operands to the rounding function. -/
theorem exactResultIsRounded : Obligations.ExactResultIsRounded := by
  intro m a b ha hb
  refine ⟨fun h => ?_, fun h => ?_, roundsValue_fpMul ha hb, roundsValue_fpDiv ha hb, fun x => roundsValue_intToFp,
    rfl, rfl⟩
  · rw [fpVal_add] at h ⊢
    rw [fpAdd_finite ha hb]
    exact roundsValue_addFinite h
  · rw [fpVal_sub] at h ⊢
    rw [fpSub_finite ha hb]
    exact roundsValue_addFinite h

end Sys2Proof.Machine
end

section
/-! Rounding to an integer and the conversions to integers (spec/43_floating_point.md R236, R237). -/

namespace Sys2Proof.Machine

/-! ### The rounded integer of a finite number -/

/-- A number's magnitude. -/
def fpAbs (w : Word) : ℚ := magnitude w / 2 ^ 149

/-- The magnitude of the integer to which a number is rounded. -/
def intMagnitude (m : Rounding) (w : Word) : ℕ := roundQuotient m (fpSign w) (magnitude w) (2 ^ 149)

theorem fpAbs_nonneg (w : Word) : 0 ≤ fpAbs w := by
  unfold fpAbs
  positivity

theorem fpVal_eq_fpAbs (w : Word) : fpVal w = if fpSign w then -fpAbs w else fpAbs w := by
  rw [fpVal_eq_magnitude, signFactor, ← fpAbs]
  split_ifs
  · exact neg_one_mul _
  · exact one_mul _

theorem roundToInt_eq (m : Rounding) (w : Word) :
    roundToInt m w = if fpSign w then -(intMagnitude m w : ℤ) else intMagnitude m w := rfl

theorem fpAbs_eq (w : Word) : fpAbs w = (magnitude w : ℚ) / (2 ^ 149 : ℕ) := by
  rw [fpAbs, Nat.cast_pow, Nat.cast_ofNat]

theorem roundsOn_intMagnitude (m : Rounding) (w : Word) :
    RoundsOn id m (fpSign w) (fpAbs w) (intMagnitude m w) :=
  fpAbs_eq w ▸ roundsOn_roundQuotient (by positivity) m (fpSign w)

/-- Toward zero: the whole part. -/
theorem intMagnitude_of_towardZero {m : Rounding} {w : Word} (hm : TowardZero m (fpSign w)) :
    (intMagnitude m w : ℚ) ≤ fpAbs w ∧ fpAbs w < intMagnitude m w + 1 := by
  have hle := (roundsOn_intMagnitude m w).le_iff strictMono_id hm
  refine ⟨(hle _).2 le_rfl, not_le.1 fun h => ?_⟩
  exact absurd ((hle (intMagnitude m w + 1)).1 (by simpa using h)) (Nat.not_succ_le_self _)

/-- Away from zero: the whole part of a whole number, else the next. -/
theorem intMagnitude_of_awayFromZero {m : Rounding} {w : Word} (hm : AwayFromZero m (fpSign w)) :
    fpAbs w ≤ intMagnitude m w ∧ (intMagnitude m w : ℚ) < fpAbs w + 1 := by
  have hge := (roundsOn_intMagnitude m w).ge_iff strictMono_id hm
  refine ⟨(hge _).2 le_rfl, ?_⟩
  cases hn : intMagnitude m w with
  | zero =>
    rw [Nat.cast_zero]
    linarith [fpAbs_nonneg w]
  | succ n =>
    have hlt : (n : ℚ) < fpAbs w := not_le.1 fun h => by
      have := (hge n).1 h
      omega
    push_cast
    linarith

/-- To nearest: within one half. -/
theorem abs_intMagnitude_sub_le {m : Rounding} (hm : m = .rne ∨ m = .rmm) (w : Word) :
    |(intMagnitude m w : ℚ) - fpAbs w| ≤ 1 / 2 := by
  have hx := fpAbs_nonneg w
  have hlo := Nat.floor_le (show 0 ≤ fpAbs w + 1 / 2 by linarith)
  have hhi := Nat.lt_floor_add_one (fpAbs w + 1 / 2)
  refine ((roundsOn_intMagnitude m w).abs_sub_le strictMono_id hm ⌊fpAbs w + 1 / 2⌋₊).trans ?_
  rw [id, abs_le]
  constructor <;> linarith

/-- A number halfway between two whole numbers is as near to the one as to the other. -/
theorem exists_other_of_half {x : ℚ} (hx : 0 ≤ x) {n : ℕ} (h : |(n : ℚ) - x| = 1 / 2) :
    ∃ N : ℕ, N ≠ n ∧ |(N : ℚ) - x| ≤ |(n : ℚ) - x| := by
  obtain hup | hdown := (abs_eq (by norm_num)).1 h
  · obtain ⟨N, rfl⟩ : ∃ N, n = N + 1 := Nat.exists_eq_succ_of_ne_zero fun h0 => by
      rw [h0, Nat.cast_zero] at hup
      linarith
    refine ⟨N, N.lt_succ_self.ne, ?_⟩
    push_cast at hup
    rw [h, abs_le]
    constructor <;> linarith
  · refine ⟨n + 1, n.lt_succ_self.ne', ?_⟩
    rw [h, abs_le]
    push_cast
    constructor <;> linarith

theorem even_intMagnitude {w : Word} (h : |(intMagnitude .rne w : ℚ) - fpAbs w| = 1 / 2) :
    intMagnitude .rne w % 2 = 0 := by
  obtain ⟨N, hne, htie⟩ := exists_other_of_half (fpAbs_nonneg w) h
  exact (roundsOn_intMagnitude .rne w).even_of_tie strictMono_id hne htie

theorem lt_intMagnitude {w : Word} (h : |(intMagnitude .rmm w : ℚ) - fpAbs w| = 1 / 2) :
    fpAbs w < intMagnitude .rmm w := by
  obtain ⟨N, hne, htie⟩ := exists_other_of_half (fpAbs_nonneg w) h
  have hlt : (N : ℚ) < intMagnitude .rmm w :=
    Nat.cast_lt.2 ((roundsOn_intMagnitude .rmm w).lt_of_tie strictMono_id hne htie)
  by_contra hle
  rw [not_lt] at hle
  rw [abs_of_nonpos (by linarith), abs_of_nonpos (by linarith)] at htie
  linarith

/-! ### With the sign -/

theorem roundToInt_eq_floor {m : Rounding} {w : Word}
    (h : (fpSign w = false ∧ TowardZero m false) ∨ (fpSign w = true ∧ AwayFromZero m true)) :
    roundToInt m w = ⌊fpVal w⌋ := by
  rw [eq_comm, Int.floor_eq_iff, roundToInt_eq, fpVal_eq_fpAbs]
  obtain ⟨hs, hm⟩ | ⟨hs, hm⟩ := h
  · obtain ⟨hlo, hhi⟩ := intMagnitude_of_towardZero (hs ▸ hm : TowardZero m (fpSign w))
    simpa [hs] using ⟨hlo, hhi⟩
  · obtain ⟨hlo, hhi⟩ := intMagnitude_of_awayFromZero (hs ▸ hm : AwayFromZero m (fpSign w))
    simp only [hs, if_true]
    push_cast
    constructor <;> linarith

theorem roundToInt_eq_ceil {m : Rounding} {w : Word}
    (h : (fpSign w = true ∧ TowardZero m true) ∨ (fpSign w = false ∧ AwayFromZero m false)) :
    roundToInt m w = ⌈fpVal w⌉ := by
  rw [eq_comm, Int.ceil_eq_iff, roundToInt_eq, fpVal_eq_fpAbs]
  obtain ⟨hs, hm⟩ | ⟨hs, hm⟩ := h
  · obtain ⟨hlo, hhi⟩ := intMagnitude_of_towardZero (hs ▸ hm : TowardZero m (fpSign w))
    simp only [hs, if_true]
    push_cast
    constructor <;> linarith
  · obtain ⟨hlo, hhi⟩ := intMagnitude_of_awayFromZero (hs ▸ hm : AwayFromZero m (fpSign w))
    simp only [hs, Bool.false_eq_true, if_false, Int.cast_natCast]
    constructor <;> linarith

theorem abs_roundToInt_sub (m : Rounding) (w : Word) :
    |(roundToInt m w : ℚ) - fpVal w| = |(intMagnitude m w : ℚ) - fpAbs w| := by
  rw [roundToInt_eq, fpVal_eq_fpAbs]
  split_ifs
  · push_cast
    rw [← neg_sub', abs_neg]
  · rfl

theorem abs_roundToInt (m : Rounding) (w : Word) : |(roundToInt m w : ℚ)| = intMagnitude m w := by
  rw [roundToInt_eq]
  split_ifs <;> simp

theorem abs_fpVal_eq_fpAbs (w : Word) : |fpVal w| = fpAbs w := by
  rw [fpVal_eq_fpAbs]
  split_ifs
  · rw [abs_neg, abs_of_nonneg (fpAbs_nonneg w)]
  · rw [abs_of_nonneg (fpAbs_nonneg w)]

theorem two_dvd_roundToInt {m : Rounding} {w : Word} (h : intMagnitude m w % 2 = 0) : 2 ∣ roundToInt m w := by
  rw [roundToInt_eq]
  split_ifs <;> omega

theorem fpVal_nonpos_of_sign {w : Word} (h : fpSign w = true) : fpVal w ≤ 0 := by
  rw [fpVal_eq_fpAbs, if_pos h, neg_nonpos]
  exact fpAbs_nonneg w

theorem fpVal_nonneg_of_sign {w : Word} (h : fpSign w = false) : 0 ≤ fpVal w := by
  rw [fpVal_eq_fpAbs, h]
  exact fpAbs_nonneg w

theorem roundToInt_rtz (w : Word) : roundToInt .rtz w = if 0 ≤ fpVal w then ⌊fpVal w⌋ else ⌈fpVal w⌉ := by
  cases hs : fpSign w
  · rw [if_pos (fpVal_nonneg_of_sign hs)]
    exact roundToInt_eq_floor (.inl ⟨hs, .inl rfl⟩)
  · have hceil : roundToInt .rtz w = ⌈fpVal w⌉ := roundToInt_eq_ceil (.inl ⟨hs, .inl rfl⟩)
    split_ifs with h
    · rw [hceil, le_antisymm (fpVal_nonpos_of_sign hs) h, Int.ceil_zero, Int.floor_zero]
    · exact hceil

/-- Settles O37: the whole numbers are the grid, and a directed mode goes toward zero or away from it, by the sign. -/
theorem roundToIntModes : Obligations.RoundToIntModes := by
  intro a _
  refine ⟨roundToInt_eq_floor ?_, roundToInt_eq_ceil ?_, roundToInt_rtz a, ?_, ?_⟩
  · cases hs : fpSign a <;> simp [TowardZero, AwayFromZero]
  · cases hs : fpSign a <;> simp [TowardZero, AwayFromZero]
  · rw [abs_roundToInt_sub]
    exact ⟨abs_intMagnitude_sub_le (.inl rfl) a, fun h => two_dvd_roundToInt (even_intMagnitude h)⟩
  · rw [abs_roundToInt_sub, abs_roundToInt, abs_fpVal_eq_fpAbs]
    exact ⟨abs_intMagnitude_sub_le (.inr rfl) a, lt_intMagnitude⟩

/-! ### The conversions (R236, R237) -/

section
variable {range : IntRange} {m : Rounding} {a : Word}

theorem fpToInt_high (h : isNan a = true ∨ (isInf a = true ∧ fpSign a = false) ∨
    (isFinite a = true ∧ range.high < roundToInt m a)) :
    fpToInt range m a = { value := BitVec.ofInt 32 range.high, nv := true } := by
  obtain hn | ⟨hi, hs⟩ | ⟨hf, hlt⟩ := h
  · rw [fpToInt, if_pos hn]
  · simp [fpToInt, isNan_of_isInf hi, hi, hs]
  · simp [fpToInt, isNan_of_isFinite hf, isInf_of_isFinite hf, hlt]

theorem fpToInt_low (hrange : range.low ≤ range.high) (h : (isInf a = true ∧ fpSign a = true) ∨
    (isFinite a = true ∧ roundToInt m a < range.low)) :
    fpToInt range m a = { value := BitVec.ofInt 32 range.low, nv := true } := by
  obtain ⟨hi, hs⟩ | ⟨hf, hlt⟩ := h
  · simp [fpToInt, isNan_of_isInf hi, hi, hs]
  · have hnot : ¬ range.high < roundToInt m a := by omega
    simp [fpToInt, isNan_of_isFinite hf, isInf_of_isFinite hf, hlt, hnot]

theorem fpToInt_inside (hf : isFinite a = true) (hlo : range.low ≤ roundToInt m a)
    (hhi : roundToInt m a ≤ range.high) :
    fpToInt range m a = { value := BitVec.ofInt 32 (roundToInt m a), nx := magnitude a % 2 ^ 149 != 0 } := by
  rw [fpToInt, isNan_of_isFinite hf, isInf_of_isFinite hf, if_neg (not_lt.2 hhi), if_neg (not_lt.2 hlo)]
  rfl

/-- The test for an inexact conversion compares the integer with the value. -/
theorem remainder_ne_zero_iff (m : Rounding) (a : Word) :
    (magnitude a % 2 ^ 149 != 0) = true ↔ (roundToInt m a : ℚ) ≠ fpVal a := by
  have hmod : (intMagnitude m a : ℚ) = fpAbs a ↔ magnitude a % 2 ^ 149 = 0 :=
    fpAbs_eq a ▸ cast_roundQuotient_eq_iff (by positivity) m (fpSign a)
  have hvalue : (roundToInt m a : ℚ) = fpVal a ↔ (intMagnitude m a : ℚ) = fpAbs a := by
    rw [← sub_eq_zero, ← abs_eq_zero, abs_roundToInt_sub, abs_eq_zero, sub_eq_zero]
  rw [bne_iff_ne, ne_eq, ne_eq, hvalue, hmod]

end

/-- Settles O38: the branches of the conversion are those of the statement, and an integer in the range is its word's
number. -/
theorem floatToIntResult : Obligations.FloatToIntResult := by
  intro m a
  refine ⟨fpToInt_high (range := signedRange), fpToInt_low (range := signedRange) (by decide), ?_,
    fpToInt_high (range := unsignedRange), fpToInt_low (range := unsignedRange) (by decide), ?_⟩
  · rintro ⟨hf, hlo, hhi⟩
    rw [fpToInt_inside (range := signedRange) hf hlo hhi]
    refine ⟨?_, rfl, remainder_ne_zero_iff m a⟩
    rw [BitVec.toInt_ofInt, Int.bmod_eq_of_le] <;> omega
  · rintro ⟨hf, hlo, hhi⟩
    rw [fpToInt_inside (range := unsignedRange) hf hlo hhi]
    refine ⟨?_, rfl, remainder_ne_zero_iff m a⟩
    rw [BitVec.toNat_ofInt, Int.emod_eq_of_lt] <;> omega

end Sys2Proof.Machine
end

section
/-! Square roots (spec/43_floating_point.md R226): the whole root with one more bit, which says whether the root is exact,
lies on the same side of every number that rounding looks at as the real root. -/

namespace Sys2Proof.Machine

/-! ### The whole part of a root -/

theorem isqrtBits_spec {n : ℕ} : ∀ {k acc : ℕ}, acc * acc ≤ n → n < (acc + 2 ^ k) * (acc + 2 ^ k) →
    isqrtBits n k acc * isqrtBits n k acc ≤ n ∧ n < (isqrtBits n k acc + 1) * (isqrtBits n k acc + 1)
  | 0, _, hlo, hhi => ⟨hlo, hhi⟩
  | k + 1, acc, hlo, hhi => by
    rw [isqrtBits]
    split_ifs with h
    · refine isqrtBits_spec h ?_
      rwa [add_assoc, ← two_mul, ← pow_succ']
    · exact isqrtBits_spec hlo (not_le.1 h)

theorem isqrt_eq_sqrt {n : ℕ} (h : n < 2 ^ 170 * 2 ^ 170) : isqrt n = Nat.sqrt n :=
  Nat.eq_sqrt.2 (isqrtBits_spec (Nat.zero_le _) (by rwa [zero_add]))

/-- The root of `n`, in halves: twice its whole part, and one more where that is not the root. -/
def rootHalves (n : ℕ) : ℕ := 2 * n.sqrt + if n.sqrt * n.sqrt = n then 0 else 1

theorem rootHalves_le_iff (n c : ℕ) : rootHalves n ≤ 2 * c ↔ n ≤ c * c := by
  have hlo := Nat.sqrt_le n
  have hhi := Nat.lt_succ_sqrt n
  unfold rootHalves
  split_ifs with h
  · rw [← h, Nat.mul_self_le_mul_self_iff, h]
    omega
  · constructor
    · exact fun hc => hhi.le.trans (Nat.mul_self_le_mul_self (by omega))
    · intro hc
      have : n.sqrt < c := Nat.mul_self_lt_mul_self_iff.1 (by omega)
      omega

theorem le_rootHalves_iff (n c : ℕ) : 2 * c ≤ rootHalves n ↔ c * c ≤ n := by
  rw [← Nat.le_sqrt]
  unfold rootHalves
  split_ifs <;> omega

/-- In halves the whole part and the further bit compare with whole numbers as the real root does. -/
theorem sameSide_sqrt (n c : ℕ) : SameSide ((rootHalves n : ℝ) / 2) (Real.sqrt n) c := by
  have hc : (0 : ℝ) ≤ c := c.cast_nonneg
  constructor
  · rw [Real.le_sqrt hc n.cast_nonneg, le_div_iff₀' two_pos]
    exact_mod_cast (le_rootHalves_iff n c).trans (by rw [sq])
  · rw [Real.sqrt_le_left hc, div_le_iff₀' two_pos]
    exact_mod_cast (rootHalves_le_iff n c).trans (by rw [sq])

theorem SameSide.scale {x y c t : ℝ} (h : SameSide x y c) (ht : 0 < t) : SameSide (x * t) (y * t) (c * t) := by
  unfold SameSide
  rwa [mul_le_mul_iff_of_pos_right ht, mul_le_mul_iff_of_pos_right ht, mul_le_mul_iff_of_pos_right ht,
    mul_le_mul_iff_of_pos_right ht]

/-! ### The root that is rounded -/

/-- The real root in units of 2^-149. -/
noncomputable def sqrtUnits (a : Word) : ℝ := Real.sqrt (fpVal a) * 2 ^ 149

theorem sqrtUnits_eq {a : Word} (hs : fpSign a = false) :
    sqrtUnits a = Real.sqrt (magnitude a * 2 ^ 61 : ℕ) * 2 ^ 44 := by
  have hval : ((fpVal a : ℚ) : ℝ) = (magnitude a * 2 ^ 61 : ℕ) * (1 / 2 ^ 105) ^ 2 := by
    rw [fpVal_eq_magnitude, hs]
    push_cast [signFactor]
    norm_num
    ring
  rw [sqrtUnits, hval, Real.sqrt_mul (Nat.cast_nonneg _), Real.sqrt_sq (by positivity), mul_assoc]
  norm_num

theorem unitRatio_rootHalves (n : ℕ) : unitRatio ℝ (rootHalves n) (2 ^ 106) = (rootHalves n : ℝ) / 2 * 2 ^ 44 := by
  rw [unitRatio]
  push_cast
  ring

/-- The first low bits of a magnitude of at least 2^74 units. -/
def rootGrid : ℕ := 52 * 2 ^ 23

theorem unitsOf_rootGrid : unitsOf rootGrid = 2 ^ 74 := by
  rw [show rootGrid = 51 * 2 ^ 23 + 2 ^ 23 from rfl, unitsOf_add (.inr le_rfl) (by norm_num), ← pow_add]

theorem dvd_unitsOf {N : ℕ} (h : rootGrid ≤ N) : 2 ^ 45 ∣ unitsOf N := by
  unfold rootGrid at h
  rw [unitsOf, if_neg (by omega)]
  exact Dvd.dvd.mul_left (pow_dvd_pow 2 (by omega)) _

/-- From 2^74 units on, the neighbours of a root and their midpoint are whole in the unit of the whole root. -/
theorem sameSide_neighbours {n lo : ℕ} (hlo : rootGrid ≤ lo) :
    SameSide (unitRatio ℝ (rootHalves n) (2 ^ 106)) (Real.sqrt n * 2 ^ 44) (unitsOf lo) ∧
      SameSide (2 * unitRatio ℝ (rootHalves n) (2 ^ 106)) (2 * (Real.sqrt n * 2 ^ 44))
        (unitsOf lo + unitsOf (lo + 1)) := by
  obtain ⟨c, hc⟩ := dvd_unitsOf hlo
  obtain ⟨d, hd⟩ := dvd_unitsOf (hlo.trans lo.le_succ)
  have hpoint : (unitsOf lo : ℝ) = (2 * c : ℕ) * 2 ^ 44 := by
    rw [hc]
    push_cast
    ring
  have hmid : (unitsOf lo : ℝ) + unitsOf (lo + 1) = (c + d : ℕ) * (2 * 2 ^ 44) := by
    rw [hc, hd]
    push_cast
    ring
  rw [unitRatio_rootHalves, hmid, hpoint, mul_left_comm 2, mul_left_comm 2]
  exact ⟨(sameSide_sqrt n (2 * c)).scale (by positivity), (sameSide_sqrt n (c + d)).scale (by positivity)⟩

/-- The number whose whole root the model takes. -/
def rootArg (w : Word) : ℕ := magnitude w * 2 ^ 61

theorem rootArg_lt {w : Word} (h : isFinite w = true) : rootArg w < 2 ^ 170 * 2 ^ 170 := by
  have hmag : magnitude w < 2 ^ 24 * 2 ^ 253 := by
    rw [magnitude_eq, ← unitsOf_infBits]
    exact unitsOf_strictMono ((isFinite_iff w).1 h)
  exact (Nat.mul_lt_mul_of_pos_right hmag (by positivity)).trans_le (by norm_num)

theorem le_rootHalves {w : Word} (h : isZero w = false) : 2 ^ 31 ≤ rootHalves (rootArg w) := by
  have hroot : 2 ^ 30 ≤ (rootArg w).sqrt := by
    have := magnitude_pos h
    rw [Nat.le_sqrt, rootArg]
    omega
  unfold rootHalves
  omega

theorem fpSqrt_eq_roundFp {a : Word} (hf : isFinite a = true) (hz : isZero a = false) (hs : fpSign a = false)
    (m : Rounding) : fpSqrt m a = roundFp m false (rootHalves (rootArg a)) (2 ^ 106) := by
  rw [fpSqrt_finite hf hz hs, sqrtFinite, ← rootArg, isqrt_eq_sqrt (rootArg_lt hf), rootHalves]

/-- A root is in the range. -/
theorem sqrtUnits_le {a : Word} (hf : isFinite a = true) (hs : fpSign a = false) :
    sqrtUnits a ≤ unitsOf (infBits - 1) := by
  have hroot : Real.sqrt (rootArg a) ≤ 2 ^ 170 := by
    rw [Real.sqrt_le_left (by positivity), sq]
    exact_mod_cast (rootArg_lt hf).le
  rw [sqrtUnits_eq hs, ← rootArg, unitsOf_maxFinite]
  refine (mul_le_mul_of_nonneg_right hroot (by positivity)).trans ?_
  norm_num

/-- FSQRT delivers the real root, rounded to the grid of magnitudes, and compares what it delivers with the real root. -/
theorem fpSqrt_rounds {a : Word} (hf : isFinite a = true) (hz : isZero a = false) (hs : fpSign a = false)
    (m : Rounding) : ∃ b, b < infBits ∧ (fpSqrt m a).bits = withSign false b ∧
      RoundsOn unitsOf m false (sqrtUnits a) b ∧
      ((fpSqrt m a).inexact = false ↔ (unitsOf b : ℝ) = sqrtUnits a) := by
  have hbig := le_rootHalves hz
  obtain ⟨hon, hexact⟩ := roundsOn_roundedLow (K := ℝ) (p := rootHalves (rootArg a)) (q := 2 ^ 106) (by omega)
    (by positivity) m false
  have hgrid : (unitsOf rootGrid : ℝ) ≤ unitRatio ℝ (rootHalves (rootArg a)) (2 ^ 106) := by
    have hbig' : (2 : ℝ) ^ 31 ≤ rootHalves (rootArg a) := by exact_mod_cast hbig
    rw [unitsOf_rootGrid, unitRatio_rootHalves]
    push_cast
    linarith
  obtain ⟨hroot, heq⟩ := hon.congr unitsOf_strictMono (y := sqrtUnits a) fun lo _ hhi => by
    have hlo : rootGrid ≤ lo :=
      Nat.lt_succ_iff.1 ((RoundsOn.cast_lt_iff unitsOf_strictMono).1 (hgrid.trans_lt hhi))
    rw [sqrtUnits_eq hs]
    exact ⟨(sameSide_neighbours hlo).1, (sameSide_neighbours (hlo.trans lo.le_succ)).1, (sameSide_neighbours hlo).2⟩
  have hlt : roundedLow m false (rootHalves (rootArg a)) (2 ^ 106) < infBits :=
    (hroot.le_of_le unitsOf_strictMono (sqrtUnits_le hf hs)).trans_lt (by decide)
  refine ⟨_, hlt, ?_, hroot, ?_⟩
  · rw [fpSqrt_eq_roundFp hf hz hs, roundFp_bits_of_lt hlt]
  · rw [fpSqrt_eq_roundFp hf hz hs, roundFp_inexact, if_pos hlt, Bool.not_eq_false', hexact, heq]

/-! ### Squares of values and units of roots -/

section
variable {a : Word} (n : ℕ)

theorem cast_sq_units :
    ((unitsOf n : ℝ) / 2 ^ 149) ^ 2 = (((unitsOf n : ℚ) / 2 ^ 149) ^ 2 : ℚ) := by
  push_cast
  rfl

/-- A magnitude's square is at most the operand where the magnitude is at most the root. -/
theorem sq_le_fpVal_iff (hs : fpSign a = false) :
    ((unitsOf n : ℚ) / 2 ^ 149) ^ 2 ≤ fpVal a ↔ (unitsOf n : ℝ) ≤ sqrtUnits a := by
  have hval : (0 : ℝ) ≤ (fpVal a : ℚ) := Rat.cast_nonneg.2 (fpVal_nonneg_of_sign hs)
  rw [sqrtUnits, ← div_le_iff₀ (by positivity), Real.le_sqrt (by positivity) hval, cast_sq_units, Rat.cast_le]

theorem fpVal_le_sq_iff : fpVal a ≤ ((unitsOf n : ℚ) / 2 ^ 149) ^ 2 ↔ sqrtUnits a ≤ unitsOf n := by
  rw [sqrtUnits, ← le_div_iff₀ (by positivity), Real.sqrt_le_left (by positivity), cast_sq_units, Rat.cast_le]

end

theorem fpVal_eq_units {w : Word} (h : 0 ≤ fpVal w) : fpVal w = unitsOf (fpLow w) / 2 ^ 149 := by
  rw [← abs_fpVal, abs_of_nonneg h]

/-- Settles O35: directed rounding of the real root, said with squares. -/
theorem squareRootDirected : Obligations.SquareRootDirected := by
  intro a hf hz hs
  refine ⟨fun m hm => ?_, ?_, fun m => ?_⟩
  · obtain ⟨b, hb, hbits, hon, -⟩ := fpSqrt_rounds hf hz hs m
    have hle := hon.le_iff unitsOf_strictMono (hm.elim .inl fun h => .inr (.inl ⟨h, rfl⟩))
    rw [hbits, fpVal_withSign_false (hb.trans infBits_lt)]
    refine ⟨isFinite_withSign false hb, by positivity, ?_, fun w _ hw hsq => ?_⟩
    · rw [sq_le_fpVal_iff b hs, hle]
    · rw [fpVal_eq_units hw, sq_le_fpVal_iff _ hs, hle] at hsq
      rw [fpVal_eq_units hw, div_le_div_iff_of_pos_right (by positivity), RoundsOn.cast_le_iff unitsOf_strictMono]
      exact hsq
  · obtain ⟨b, hb, hbits, hon, -⟩ := fpSqrt_rounds hf hz hs .rup
    have hge := hon.ge_iff unitsOf_strictMono (.inr ⟨rfl, rfl⟩)
    rw [hbits, fpVal_withSign_false (hb.trans infBits_lt)]
    refine ⟨isFinite_withSign false hb, by positivity, ?_, fun w _ hw hsq => ?_⟩
    · rw [fpVal_le_sq_iff b, hge]
    · rw [fpVal_eq_units hw, fpVal_le_sq_iff _, hge] at hsq
      rw [fpVal_eq_units hw, div_le_div_iff_of_pos_right (by positivity), RoundsOn.cast_le_iff unitsOf_strictMono]
      exact hsq
  · obtain ⟨b, hb, hbits, -, hexact⟩ := fpSqrt_rounds hf hz hs m
    rw [hexact, hbits, fpVal_withSign_false (hb.trans infBits_lt), le_antisymm_iff, le_antisymm_iff,
      sq_le_fpVal_iff b hs, fpVal_le_sq_iff b]

/-- Settles O36: the grid of magnitudes has no point nearer to the real root, and no number is nearer than its
magnitude. -/
theorem squareRootNearest : Obligations.SquareRootNearest := by
  intro m a w hm hf hz hs _
  obtain ⟨b, hb, hbits, hon, -⟩ := fpSqrt_rounds hf hz hs m
  have hnear := hon.abs_sub_le unitsOf_strictMono hm (fpLow w)
  have hroot : Real.sqrt (fpVal a : ℝ) = sqrtUnits a / 2 ^ 149 := by
    rw [sqrtUnits, mul_div_cancel_right₀ _ (by positivity)]
  have hw : |((fpVal w : ℚ) : ℝ)| = unitsOf (fpLow w) / 2 ^ 149 := by
    rw [← Rat.cast_abs, abs_fpVal]
    push_cast
    rfl
  rw [hbits, fpVal_withSign_false (hb.trans infBits_lt)]
  refine ⟨isFinite_withSign false hb, ?_⟩
  calc |(((unitsOf b : ℚ) / 2 ^ 149 : ℚ) : ℝ) - Real.sqrt (fpVal a : ℝ)|
      = |(unitsOf b : ℝ) - sqrtUnits a| / 2 ^ 149 := by
        rw [hroot]
        push_cast
        rw [← sub_div, abs_div, abs_of_pos (by positivity : (0 : ℝ) < 2 ^ 149)]
    _ ≤ |(unitsOf (fpLow w) : ℝ) - sqrtUnits a| / 2 ^ 149 := div_le_div_of_nonneg_right hnear (by positivity)
    _ = |abs (fpVal w : ℝ) - abs (Real.sqrt (fpVal a : ℝ))| := by
        rw [hw, abs_of_nonneg (Real.sqrt_nonneg _), hroot, ← sub_div, abs_div,
          abs_of_pos (by positivity : (0 : ℝ) < 2 ^ 149)]
    _ ≤ |(fpVal w : ℝ) - Real.sqrt (fpVal a : ℝ)| := abs_abs_sub_abs_le_abs_sub _ _

end Sys2Proof.Machine
end

section
/-! Polling and waiting for interrupts, the counter reads, and the count of retired instructions
(spec/44_machine_mode.md R263 to R272). -/

namespace Sys2Proof.Machine

/-! ### Interrupts taken by an instruction (R263, R264) -/

/-- A trap entry from user mode that resumes after the current instruction, as the changes it makes (R284; log 14). -/
theorem trapEnter_after {s : State} (hm : s.mode = .user) :
    trapEnter (s.pc + 4) s = { s with pcU := s.pcU + 4, pie := s.ie, ie := false, mode := .machine } := by
  rw [State.pc_of_user hm, trapEnter]

/-- Settles O46: with no interrupt PFI only goes on, and with one user mode enters machine mode. -/
theorem pollForInterrupt : Obligations.PollForInterrupt := by
  refine fun s => ⟨fun hi => completesPc_of_advance (execPfi_eq_next.2 (.inr ⟨hi, rfl⟩)), fun hi hm => ?_⟩
  rw [← trapEnter_after hm]
  exact execPfi_eq_next.2 (.inl ⟨hi, hm, rfl⟩)

theorem State.setWaiting_false {s : State} (hw : s.waiting = false) : { s with waiting := false } = s := by
  rw [← hw]

theorem exec_wfi (s : State) : exec .wfi s = .next (waitForInterrupt s) := rfl

/-- Settles O47: the three outcomes of WFI; the two that end the wait find none to end. -/
theorem waitForInterruptForms : Obligations.WaitForInterruptForms := by
  refine fun s hw => ⟨fun hi hu => completesPc_of_advance ?_, fun hi hm hie => ?_, fun hi => ?_⟩
  · rw [exec_wfi, waitForInterrupt_ended hi hu, State.setWaiting_false hw]
  · rw [exec_wfi, waitForInterrupt_taken hi hm hie, State.setWaiting_false hw, ← trapEnter_after hm]
    rfl
  · rw [exec_wfi, waitForInterrupt_paused hi]

/-! ### The counter reads (R265 to R270) -/

/-- A field as a number: what is left of the number above the field's position, modulo the field's width. -/
theorem extract_eq_ofNat_div {m : Nat} (x : BitVec m) (i n : Nat) :
    x.extractLsb' i n = BitVec.ofNat n (x.toNat / 2 ^ i) := by
  rw [← Nat.shiftRight_eq_div_pow, BitVec.extractLsb']

/-- A counter read of the low half. -/
theorem completesX_of_writeLow {i : Instr} {s : State} {rd : XReg} {c : DWord}
    (h : exec i s = writeX rd (c.extractLsb' 0 32) s) :
    CompletesX i s rd (BitVec.ofNat 32 c.toNat) {} (s.pc + 4) := by
  rw [extract_eq_ofNat_div, pow_zero, Nat.div_one] at h
  exact completesX_of_writeX h

/-- A counter read of the high half. -/
theorem completesX_of_writeHigh {i : Instr} {s : State} {rd : XReg} {c : DWord}
    (h : exec i s = writeX rd (c.extractLsb' 32 32) s) :
    CompletesX i s rd (BitVec.ofNat 32 (c.toNat / 2 ^ 32)) {} (s.pc + 4) := by
  rw [extract_eq_ofNat_div] at h
  exact completesX_of_writeX h

/-- Settles O53: each counter read writes one half of its counter. -/
theorem counterReads : Obligations.CounterReads := fun _ _ =>
  ⟨completesX_of_writeLow rfl, completesX_of_writeHigh rfl, completesX_of_writeLow rfl, completesX_of_writeHigh rfl,
    completesX_of_writeLow rfl, completesX_of_writeHigh rfl⟩

/-! ### Retired instructions (R272) -/

theorem waitForInterrupt_instret (s : State) : (waitForInterrupt s).instret = s.instret := by
  obtain ⟨-, -, -, h⟩ | ⟨-, -, h⟩ | ⟨-, h⟩ := waitForInterrupt_cases s
  · rw [h, takeTrap, trapEnter_instret]
  · rw [h, State.advance_instret]
  · rw [h]

/-- The count rises at the end of a step and nowhere else. -/
theorem exec_keeps_instret {i : Instr} {s t : State} (h : exec i s = .next t) : t.instret = s.instret := by
  cases exec_event h with
  | ordinary ho => exact ho.control.instret
  | trap hi hm => exact trapEnter_instret _ _
  | ret hi hm => rfl
  | wait hi => exact waitForInterrupt_instret s

/-- The end of a step counts an instruction unless the core is waiting afterwards. -/
theorem finishInstr_instret (u : State) : (finishInstr u).instret =
    if (finishInstr u).waiting = true then u.instret else u.instret + 1 := by
  rw [finishInstr_eq]

/-- Settles O55: an interrupt between instructions ends no instruction; the other two steps end as instructions do. -/
theorem retiredCount : Obligations.RetiredCount := by
  intro s t h
  obtain ⟨hw, rfl⟩ | ⟨hw, hr, rfl⟩ | ⟨-, hr, w, i, u, -, -, hx, rfl⟩ := step_eq_next.1 h
  · rw [finishInstr_instret, waitForInterrupt_instret]
    simp only [hw, Bool.true_eq_false, false_and, false_or]
  · rw [if_pos (.inl ⟨hw, hr⟩), elapse_instret, takeTrap, trapEnter_instret]
  · rw [finishInstr_instret, exec_keeps_instret hx]
    simp only [hr, Bool.false_eq_true, and_false, false_or]

end Sys2Proof.Machine
end

section
/-! Trap entry and return (spec/44_machine_mode.md R260 to R262, spec/60_exceptions.md R280 to R287): the instructions that
change the mode in the mode that allows it and in the other, and the interrupt between instructions. -/

namespace Sys2Proof.Machine

/-! ### In the mode that allows it (R260 to R262, R284, R285) -/

theorem exec_ecall_of_user {s : State} (hm : s.mode = .user) : exec .ecall s = .next (trapEnter (s.pc + 4) s) :=
  execEcall_eq_next.2 ⟨hm, rfl⟩

theorem exec_ebreak_of_user {s : State} (hm : s.mode = .user) : exec .ebreak s = .next (trapEnter (s.pc + 4) s) :=
  execEbreak_eq_next.2 ⟨hm, rfl⟩

theorem exec_eret_of_machine {s : State} (hm : s.mode = .machine) : exec .eret s = .next (trapReturn s) :=
  execEret_eq_next.2 ⟨hm, rfl⟩

/-- Settles O45: trap entry and trap return, as the changes they make. -/
theorem trapEntryAndReturn : Obligations.TrapEntryAndReturn := by
  refine fun s => ⟨fun hm => ?_, exec_eret_of_machine⟩
  rw [← trapEnter_after hm]
  exact ⟨exec_ecall_of_user hm, exec_ebreak_of_user hm⟩

/-- A return at once after a trap entry undoes it: only the two program counters and `pie` show that it happened. -/
theorem trapReturn_trapEnter {s : State} (hm : s.mode = .user) (resume : Word) :
    trapReturn (trapEnter resume s) = { s with pcU := resume, pcM := s.pcM + 4, pie := s.ie } := by
  rw [trapReturn, trapEnter, ← hm]

/-- Settles O51: the call enters machine mode, and the return undoes the entry. -/
theorem callAndReturn : Obligations.CallAndReturn := by
  refine fun s hm => ⟨trapEnter (s.pc + 4) s, exec_ecall_of_user hm, State.pc_of_machine rfl, fun r => State.x_eq _ r, ?_⟩
  rw [exec_eret_of_machine (trapEnter_mode _ _), trapReturn_trapEnter hm, State.pc_of_user hm]

/-! ### In the other mode (R286, D10, log 16) -/

theorem raiseTrap_of_machine {s : State} (hm : s.mode = .machine) (c : TrapCause) :
    raiseTrap c s = .refused .trapInMachineMode := by
  rw [raiseTrap, hm]

theorem execPfi_of_irq {s : State} (hi : s.irq = true) : execPfi s = raiseTrap (.interrupt .poll) s := if_pos hi

theorem execEret_of_user {s : State} (hm : s.mode = .user) : execEret s = .refused .eretInUserMode := by
  rw [execEret, hm]

/-- Settles O50: the three that raise a trap are refused where traps are, and ERET where there is nothing to return from. -/
theorem wrongModeRefused : Obligations.WrongModeRefused := fun _ =>
  ⟨fun hm => ⟨raiseTrap_of_machine hm .envCall, raiseTrap_of_machine hm .breakpoint, fun hi =>
    (execPfi_of_irq hi).trans (raiseTrap_of_machine hm (.interrupt .poll))⟩, execEret_of_user⟩

/-! ### The interrupt between instructions (R272, R283, R284) -/

/-- The instruction that was not executed is the one to resume at (R280, log 14). -/
theorem takeTrap_between {s : State} (hm : s.mode = .user) :
    takeTrap (.interrupt .between) s = { s with pie := s.ie, ie := false, mode := .machine } := by
  rw [takeTrap, State.pc_of_user hm]
  rfl

/-- A step that finds an interrupt due takes it, and no instruction ends. -/
theorem step_of_interruptReady {s : State} (hw : s.waiting = false) (hr : s.interruptReady = true) :
    step s = .next (elapse (takeTrap (.interrupt .between) s)) :=
  step_eq_next.2 (.inr (.inl ⟨hw, hr, rfl⟩))

/-- Settles O49: the interrupt is due, and taking it saves an `ie` that is set. -/
theorem interruptIsTaken : Obligations.InterruptIsTaken := by
  intro s hw hm hie hi
  have hr : s.interruptReady = true := interruptReady_iff.2 ⟨hm, hie, hi⟩
  rw [step_of_interruptReady hw hr, takeTrap_between hm, hie]
  exact ⟨_, rfl⟩

end Sys2Proof.Machine
end

section
/-! Reset (spec/70_reset_and_hazards.md R320, R321): what it fixes for every memory image and every draw, the invariant it
establishes, and the first step, which fetches from the image. -/

namespace Sys2Proof.Machine

/-! ### What reset fixes (R320) -/

section
variable (mem : Memory) (d : Drawn)

@[simp] theorem State.init_mode : (State.init mem d).mode = .machine := rfl
@[simp] theorem State.init_ie : (State.init mem d).ie = false := rfl
@[simp] theorem State.init_waiting : (State.init mem d).waiting = false := rfl
@[simp] theorem State.init_mem : (State.init mem d).mem = mem := rfl

/-- Execution begins at the reset address (log 28). -/
@[simp] theorem State.init_pc : (State.init mem d).pc = 0xFFFC0100 := State.pc_of_machine rfl

end

/-- The reset address can be fetched from (R67). -/
theorem aligned_resetPc : Aligned 0xFFFC0100 := by decide

/-- No interrupt is due in machine mode, whatever its level (R283). -/
theorem interruptReady_of_machine {s : State} (hm : s.mode = .machine) : s.interruptReady = false := by
  rw [State.interruptReady, hm]
  rfl

/-! ### The invariant -/

/-- Reset establishes the invariant where the image is canonical and the drawn user program counter aligned. -/
theorem State.init_inv {mem : Memory} {d : Drawn} (hmem : Memory.wf mem) (hpc : Aligned d.pcU) :
    State.Inv (State.init mem d) where
  mem := hmem
  ie := fun _ => State.init_ie mem d
  pcU := hpc
  pcM := aligned_resetPc

/-- Settles O58: the values of log 1 are one such draw. -/
theorem invAtReset : Obligations.InvAtReset :=
  ⟨State.init_inv State.reset_mem_wf (by decide), fun _ _ => State.init_inv⟩

/-! ### The first step (R321) -/

/-- An image that holds the four bytes of a word at the reset address has them where the first step fetches: the addresses
do not wrap around. -/
theorem State.init_bytesAt {mem : Memory} (d : Drawn) {w : Word}
    (h : ∀ k < 4, Memory.read mem (0xFFFC0100 + k) = some (w.extractLsb' (8 * k) 8)) :
    BytesAt (State.init mem d) (State.init mem d).pc (bytesOfWord 4 w) := by
  intro k hk
  have hk4 : k < 4 := by rwa [bytesOfWord_length] at hk
  have haddr : ((0xFFFC0100 : Word) + BitVec.ofNat 32 k).toNat = 0xFFFC0100 + k := by bv_omega
  rw [State.init_pc, State.init_mem, haddr, bytesOfWord_getElem]
  exact ⟨regionOf_cases _, h k hk4⟩

/-- A state due to fetch executes the instruction whose word lies at its program counter. -/
theorem executes_of_encode_bytesAt {s : State} {i : Instr} (hw : s.waiting = false) (hr : s.interruptReady = false)
    (ha : Aligned s.pc) (hi : i.wellFormed = true) (hbytes : BytesAt s s.pc (bytesOfWord 4 (encode i))) :
    Executes s i :=
  executes_of_bytesAt hw hr ha (bytesOfWord_length 4 _) hbytes (by rw [wordOfBytes_bytesOfWord, decode_encode hi])

/-- Settles O57: nothing is due before the fetch, and the fetch finds the word of the image. -/
theorem firstInstructionAfterReset : Obligations.FirstInstructionAfterReset := by
  intro mem d i hi hread
  have hexec : Executes (State.init mem d) i :=
    executes_of_encode_bytesAt (State.init_waiting mem d) (interruptReady_of_machine (State.init_mode mem d))
      (State.init_pc mem d ▸ aligned_resetPc) hi (State.init_bytesAt d hread)
  exact ⟨State.init_mode mem d, State.init_ie mem d, State.init_pc mem d, step_of_executes hexec⟩

end Sys2Proof.Machine
end

section
/-! The two round trips of the encoding (spec/30_encoding.md sections 2 and 4): the fields of a word, put back together,
are the word, so the decoder ignores no bit of a word that it accepts; and the sample words of every format. -/

namespace Sys2Proof

/-- Settles O1: the decoder inverts each format's columns, and answers the one well-formed spelling of the word. -/
theorem decodeEncodeRoundTrip : Obligations.DecodeEncodeRoundTrip := fun _ => decode_encode

/-- A word decodes to the well-formed instruction that has it as its encoding. -/
theorem decode_of_encode {w : Word} {i : Instr} (hw : encode i = w) (hi : i.wellFormed = true) : decode w = .ok i :=
  hw ▸ decode_encode hi

/-- Settles O6: each sample word is the encoding of its instruction. -/
theorem sampleWordsDecode : Obligations.SampleWordsDecode := by
  unfold Obligations.SampleWordsDecode
  and_intros <;> exact decode_of_encode (by decide) rfl

/-! ### A word from its fields

For each format: a word is the encoding of the values that its fields have. -/

section
variable {w : Word} {op f7 : BitVec 7} {rd rs1 rs2 : BitVec 5} {f3 : BitVec 3}

theorem encodeR_of_fields (hop : opcodeOf w = op) (hd : rdOf w = rd) (h3 : funct3Of w = f3) (h1 : rs1Of w = rs1)
    (h2 : rs2Of w = rs2) (h7 : funct7Of w = f7) : encodeR f7 rs2 rs1 f3 rd op = w := by
  rw [← hop, ← hd, ← h3, ← h1, ← h2, ← h7, encodeR, funct7Of, rs2Of, rs1Of, funct3Of, rdOf, opcodeOf,
    extract_join w 20 5 7, extract_join w 15 5 12, extract_join w 12 3 17, extract_join w 7 5 20]
  exact (extract_join w 0 7 25).trans (extract_all w)

/-- The immediate of formats JALR, RI and ML fills the two upper columns of format R2. -/
theorem encodeI_of_fields {imm : BitVec 12} (hop : opcodeOf w = op) (hd : rdOf w = rd) (h3 : funct3Of w = f3)
    (h1 : rs1Of w = rs1) (hi : immIOf w = imm) : encodeI imm rs1 f3 rd op = w := by
  have himm : funct7Of w ++ rs2Of w = imm := (extract_join w 20 5 7).trans hi
  rw [← himm]
  exact encodeR_of_fields hop hd h3 h1 rfl rfl

/-- The immediate of format U fills the four upper columns of format R2. -/
theorem encodeU_of_fields {imm : BitVec 20} (hop : opcodeOf w = op) (hd : rdOf w = rd) (hi : immUOf w = imm) :
    encodeU imm rd op = w := by
  have himm : immIOf w ++ rs1Of w ++ funct3Of w = imm := by
    rw [immIOf, rs1Of, funct3Of, extract_join w 15 5 12]
    exact (extract_join w 12 3 17).trans hi
  rw [← himm]
  exact encodeI_of_fields hop hd rfl rfl rfl

/-- Format MS has the columns of format R2, the immediate in the first and the fifth. -/
theorem encodeS_of_fields {imm : BitVec 12} (hop : opcodeOf w = op) (h3 : funct3Of w = f3) (h1 : rs1Of w = rs1)
    (h2 : rs2Of w = rs2) (hi : immSOf w = imm) : encodeS imm rs2 rs1 f3 op = w := by
  subst hi
  have hlow : rdOf w = (immSOf w).extractLsb' 0 5 :=
    ((extract_append_low _ _ 0 5 (by omega)).trans (extract_all _)).symm
  have hhigh : funct7Of w = (immSOf w).extractLsb' 5 7 :=
    ((extract_append_high _ _ 5 7 (by omega)).trans (extract_all _)).symm
  exact encodeR_of_fields hop hlow h3 h1 h2 hhigh

theorem encodeB_of_fields {off : BitVec 12} (hop : opcodeOf w = 99#7) (h3 : funct3Of w = f3) (h1 : rs1Of w = rs1)
    (h2 : rs2Of w = rs2) (hi : offBOf w = off) : encodeB off rs2 rs1 f3 = w := by
  subst hi
  have h12 : (offBOf w).extractLsb' 11 1 = w.extractLsb' 31 1 :=
    (extract_append_high _ _ 11 1 (by omega)).trans ((extract_append_high _ _ 7 1 (by omega)).trans
      ((extract_append_high _ _ 1 1 (by omega)).trans (extract_all _)))
  have h11 : (offBOf w).extractLsb' 10 1 = w.extractLsb' 7 1 :=
    (extract_append_high _ _ 10 1 (by omega)).trans ((extract_append_high _ _ 6 1 (by omega)).trans
      ((extract_append_low _ _ 0 1 (by omega)).trans (extract_all _)))
  have h10 : (offBOf w).extractLsb' 4 6 = w.extractLsb' 25 6 :=
    (extract_append_high _ _ 4 6 (by omega)).trans ((extract_append_low _ _ 0 6 (by omega)).trans (extract_all _))
  have h4 : (offBOf w).extractLsb' 0 4 = w.extractLsb' 8 4 :=
    (extract_append_low _ _ 0 4 (by omega)).trans (extract_all _)
  rw [encodeB, h12, h11, h10, h4, ← h3, ← h1, ← h2, ← hop, rs2Of, rs1Of, funct3Of, opcodeOf, extract_join w 25 6 1,
    extract_join w 20 5 7, extract_join w 15 5 12, extract_join w 12 3 17, extract_join w 8 4 20,
    extract_join w 7 1 24]
  exact (extract_join w 0 7 25).trans (extract_all w)

/-- Format JAL has the columns of format U, its immediate in another order. -/
theorem encodeJ_of_fields {off : BitVec 20} (hop : opcodeOf w = 111) (hd : rdOf w = rd) (hi : offJOf w = off) :
    encodeJ off rd = w := by
  subst hi
  have h20 : (offJOf w).extractLsb' 19 1 = w.extractLsb' 31 1 :=
    (extract_append_high _ _ 19 1 (by omega)).trans ((extract_append_high _ _ 9 1 (by omega)).trans
      ((extract_append_high _ _ 8 1 (by omega)).trans (extract_all _)))
  have h12 : (offJOf w).extractLsb' 11 8 = w.extractLsb' 12 8 :=
    (extract_append_high _ _ 11 8 (by omega)).trans ((extract_append_high _ _ 1 8 (by omega)).trans
      ((extract_append_low _ _ 0 8 (by omega)).trans (extract_all _)))
  have h11 : (offJOf w).extractLsb' 10 1 = w.extractLsb' 20 1 :=
    (extract_append_high _ _ 10 1 (by omega)).trans ((extract_append_low _ _ 0 1 (by omega)).trans (extract_all _))
  have h10 : (offJOf w).extractLsb' 0 10 = w.extractLsb' 21 10 :=
    (extract_append_low _ _ 0 10 (by omega)).trans (extract_all _)
  have himm : (offJOf w).extractLsb' 19 1 ++ (offJOf w).extractLsb' 0 10 ++ (offJOf w).extractLsb' 10 1 ++
      (offJOf w).extractLsb' 11 8 = immUOf w := by
    rw [h20, h10, h11, h12, extract_join w 21 10 1, extract_join w 20 1 11]
    exact extract_join w 12 8 12
  rw [encodeJ, himm]
  exact encodeU_of_fields hop hd rfl

/-- Format FENCE has the columns of format RI, the sets in the first. -/
theorem encodeFence_of_fields {pred succ : BitVec 4} (hop : opcodeOf w = 15) (hd : rdOf w = 0) (h3 : funct3Of w = f3)
    (h1 : rs1Of w = 0) (h12 : funct12Of w = 0#4 ++ pred ++ succ) : encodeFence pred succ f3 = w :=
  encodeI_of_fields hop hd h3 h1 h12

/-- The first column of FENCE, from its zero bits and its sets (R101). -/
theorem funct12_of_sets (hz : w.extractLsb' 28 4 = 0) :
    funct12Of w = 0#4 ++ w.extractLsb' 24 4 ++ w.extractLsb' 20 4 := by
  have hz' : 0#4 = w.extractLsb' 28 4 := hz.symm
  rw [hz', extract_join w 24 4 4]
  exact (extract_join w 20 4 8).symm

/-- Format SYS has the columns of format RI, the function code in the first. -/
theorem encodeSys_of_fields {code : BitVec 12} (hop : opcodeOf w = 115) (hd : rdOf w = rd) (h3 : funct3Of w = f3)
    (h1 : rs1Of w = 0) (h12 : funct12Of w = code) : encodeSys code f3 rd = w :=
  encodeI_of_fields hop hd h3 h1 h12

/-! ### The word of a decoded instruction

One lemma per function of the decoder: the fields it tests hold the constants of the instruction's format, and it hands
on every other field. -/

variable {i : Instr}

theorem encode_of_decodeBranch (hop : opcodeOf w = 99) (h : decodeBranch w = .ok i) : encode i = w := by
  iterate 6
    obtain ⟨h3, ⟨⟩⟩ | ⟨-, h⟩ := ite_eq_iff.1 h
    · exact encodeB_of_fields hop h3 rfl rfl rfl
  cases h

theorem encode_of_decodeLoad (hop : opcodeOf w = 3) (h : decodeLoad w = .ok i) : encode i = w := by
  iterate 5
    obtain ⟨h3, ⟨⟩⟩ | ⟨-, h⟩ := ite_eq_iff.1 h
    · exact encodeI_of_fields hop rfl h3 rfl rfl
  cases h

theorem encode_of_decodeStore (hop : opcodeOf w = 35) (h : decodeStore w = .ok i) : encode i = w := by
  iterate 3
    obtain ⟨h3, ⟨⟩⟩ | ⟨-, h⟩ := ite_eq_iff.1 h
    · exact encodeS_of_fields hop h3 rfl rfl rfl
  cases h

theorem encode_of_decodeOpImm (hop : opcodeOf w = 19) (h : decodeOpImm w = .ok i) : encode i = w := by
  unfold decodeOpImm at h
  split_ifs at h with h0 h1 h7 h2 h3 h4 h5 h7 h7 h6 <;> cases h
  · exact encodeI_of_fields hop rfl h0 rfl rfl
  · exact encodeR_of_fields hop rfl h1 rfl rfl h7
  · exact encodeI_of_fields hop rfl h2 rfl rfl
  · exact encodeI_of_fields hop rfl h3 rfl rfl
  · exact encodeI_of_fields hop rfl h4 rfl rfl
  · exact encodeR_of_fields hop rfl h5 rfl rfl h7
  · exact encodeR_of_fields hop rfl h5 rfl rfl h7
  · exact encodeI_of_fields hop rfl h6 rfl rfl
  · exact encodeI_of_fields hop rfl (funct3_eq_seven h0 h1 h2 h3 h4 h5 h6) rfl rfl

theorem encode_of_decodeOp (hop : opcodeOf w = 51) (h : decodeOp w = .ok i) : encode i = w := by
  unfold decodeOp at h
  split_ifs at h with h7 h0 h1 h2 h3 h4 h5 h6 <;> cases h
  case neg => -- AND
    exact encodeR_of_fields hop rfl (funct3_eq_seven h0 h1 h2 h3 h4 h5 h6) rfl rfl h7
  all_goals exact encodeR_of_fields hop rfl ‹funct3Of w = _› rfl rfl ‹funct7Of w = _›

theorem encode_of_decodeFloatRm (hop : opcodeOf w = 83) (h : decodeFloatRm w = some i) : encode i = w := by
  iterate 4
    obtain ⟨h7, ⟨⟩⟩ | ⟨-, h⟩ := ite_eq_iff.1 h
    · exact encodeR_of_fields hop rfl rfl rfl rfl h7
  iterate 5
    obtain ⟨⟨h7, h2⟩, ⟨⟩⟩ | ⟨-, h⟩ := ite_eq_iff.1 h
    · exact encodeR_of_fields hop rfl rfl rfl h2 h7
  cases h

theorem encode_of_decodeFloatSel (hop : opcodeOf w = 83) (h : decodeFloatSel w = some i) : encode i = w := by
  iterate 8
    obtain ⟨⟨h7, h3⟩, ⟨⟩⟩ | ⟨-, h⟩ := ite_eq_iff.1 h
    · exact encodeR_of_fields hop rfl h3 rfl rfl h7
  iterate 3
    obtain ⟨⟨h7, h2, h3⟩, ⟨⟩⟩ | ⟨-, h⟩ := ite_eq_iff.1 h
    · exact encodeR_of_fields hop rfl h3 rfl h2 h7
  cases h

theorem encode_of_decodeFloat (hop : opcodeOf w = 83) (h : decodeFloat w = .ok i) : encode i = w := by
  cases hrm : decodeFloatRm w with
  | some j =>
    obtain rfl : j = i := by simpa [decodeFloat, hrm] using h
    exact encode_of_decodeFloatRm hop hrm
  | none =>
    cases hsel : decodeFloatSel w with
    | some j =>
      obtain rfl : j = i := by simpa [decodeFloat, hrm, hsel] using h
      exact encode_of_decodeFloatSel hop hsel
    | none => simp [decodeFloat, hrm, hsel] at h

theorem encode_of_decodeFence (hop : opcodeOf w = 15) (h : decodeFence w = .ok i) : encode i = w := by
  obtain ⟨⟨h1, hd, hz, h3⟩, ⟨⟩⟩ | ⟨-, h⟩ := ite_eq_iff.1 h
  · exact encodeFence_of_fields hop hd h3 h1 (funct12_of_sets hz)
  obtain ⟨⟨h1, hd, h12, h3⟩, ⟨⟩⟩ | ⟨-, h⟩ := ite_eq_iff.1 h
  · exact encodeFence_of_fields hop hd h3 h1 h12
  cases h

theorem encode_of_decodeSystem (hop : opcodeOf w = 115) (h : decodeSystem w = .ok i) : encode i = w := by
  iterate 5
    obtain ⟨⟨h1, h3, hd, h12⟩, ⟨⟩⟩ | ⟨-, h⟩ := ite_eq_iff.1 h
    · exact encodeSys_of_fields hop hd h3 h1 h12
  iterate 6
    obtain ⟨⟨h1, h3, h12⟩, ⟨⟩⟩ | ⟨-, h⟩ := ite_eq_iff.1 h
    · exact encodeSys_of_fields hop rfl h3 h1 h12
  cases h

/-- The decoder of the 73 rows ignores no bit: the word is the encoding of the instruction it answers. -/
theorem encode_of_decodeBase (h : decodeBase w = .ok i) : encode i = w := by
  iterate 2
    obtain ⟨hop, ⟨⟩⟩ | ⟨-, h⟩ := ite_eq_iff.1 h
    · exact encodeU_of_fields hop rfl rfl
  obtain ⟨hop, ⟨⟩⟩ | ⟨-, h⟩ := ite_eq_iff.1 h
  · exact encodeJ_of_fields hop rfl rfl
  obtain ⟨hop, h⟩ | ⟨-, h⟩ := ite_eq_iff.1 h
  · obtain ⟨h3, ⟨⟩⟩ | ⟨-, ⟨⟩⟩ := ite_eq_iff.1 h
    exact encodeI_of_fields hop rfl h3 rfl rfl
  obtain ⟨hop, h⟩ | ⟨-, h⟩ := ite_eq_iff.1 h
  · exact encode_of_decodeBranch hop h
  obtain ⟨hop, h⟩ | ⟨-, h⟩ := ite_eq_iff.1 h
  · exact encode_of_decodeLoad hop h
  obtain ⟨hop, h⟩ | ⟨-, h⟩ := ite_eq_iff.1 h
  · obtain ⟨h3, ⟨⟩⟩ | ⟨-, ⟨⟩⟩ := ite_eq_iff.1 h
    exact encodeI_of_fields hop rfl h3 rfl rfl
  obtain ⟨hop, h⟩ | ⟨-, h⟩ := ite_eq_iff.1 h
  · exact encode_of_decodeStore hop h
  obtain ⟨hop, h⟩ | ⟨-, h⟩ := ite_eq_iff.1 h
  · obtain ⟨h3, ⟨⟩⟩ | ⟨-, ⟨⟩⟩ := ite_eq_iff.1 h
    exact encodeS_of_fields hop h3 rfl rfl rfl
  obtain ⟨hop, h⟩ | ⟨-, h⟩ := ite_eq_iff.1 h
  · exact encode_of_decodeOpImm hop h
  obtain ⟨hop, h⟩ | ⟨-, h⟩ := ite_eq_iff.1 h
  · exact encode_of_decodeOp hop h
  obtain ⟨hop, h⟩ | ⟨-, h⟩ := ite_eq_iff.1 h
  · exact encode_of_decodeFloat hop h
  obtain ⟨hop, h⟩ | ⟨-, h⟩ := ite_eq_iff.1 h
  · exact encode_of_decodeFence hop h
  obtain ⟨hop, h⟩ | ⟨-, h⟩ := ite_eq_iff.1 h
  · exact encode_of_decodeSystem hop h
  cases h

end

/-! ### The spelling that the decoder answers (R117, log 35) -/

/-- An extended mnemonic is well-formed and has the word of the instruction that it abbreviates. -/
theorem wellFormed_and_encode_of_extended {i e : Instr} (h : i.extended = some e) :
    e.wellFormed = true ∧ encode e = encode i := by
  cases i with
  | jal | ori | or | fsgnj | fsgnjn | fsgnjx =>
    obtain ⟨rfl, ⟨⟩⟩ := Option.ite_none_right_eq_some.1 h
    exact ⟨rfl, rfl⟩
  | beq =>
    obtain ⟨⟨rfl, rfl⟩, ⟨⟩⟩ := Option.ite_none_right_eq_some.1 h
    exact ⟨rfl, rfl⟩
  | jalr | addi =>
    obtain ⟨⟨rfl, rfl, rfl⟩, ⟨⟩⟩ := Option.ite_none_right_eq_some.1 h
    exact ⟨rfl, rfl⟩
  | _ => cases h

/-- An instruction that no extended mnemonic abbreviates is well-formed. -/
theorem wellFormed_of_extended_none {i : Instr} (h : i.extended = none) : i.wellFormed = true := by
  cases i with
  | jal | jalr | beq | addi | ori | or | fsgnj | fsgnjn | fsgnjx =>
    simpa [Instr.extended, Instr.wellFormed, imp_iff_not_or, or_assoc] using h
  | _ => rfl

theorem wellFormed_and_encode_spell (i : Instr) : i.spell.wellFormed = true ∧ encode i.spell = encode i := by
  cases h : i.extended with
  | some e =>
    rw [Instr.spell, h, Option.getD_some]
    exact wellFormed_and_encode_of_extended h
  | none =>
    rw [Instr.spell, h, Option.getD_none]
    exact ⟨wellFormed_of_extended_none h, rfl⟩

/-- The decoder answers the spelling of the instruction that the decoder of the 73 rows answers. -/
theorem decode_eq_ok {w : Word} {i : Instr} (h : decode w = .ok i) : ∃ j, decodeBase w = .ok j ∧ i = j.spell := by
  cases hj : decodeBase w with
  | ok j => exact ⟨j, rfl, by simpa [decode, hj] using h.symm⟩
  | error e => simp [decode, hj] at h

/-- Settles O2: the word is that of the machine instruction it decodes to, and the spelling keeps it. -/
theorem encodeDecodeRoundTrip : Obligations.EncodeDecodeRoundTrip := by
  intro w i h
  obtain ⟨j, hj, rfl⟩ := decode_eq_ok h
  obtain ⟨hwf, henc⟩ := wellFormed_and_encode_spell j
  exact ⟨hwf, henc.trans (encode_of_decodeBase hj)⟩

end Sys2Proof
end
